-- ==== Sys2Proof/Word.lean ====
section
/-! DEFINITION. The widths DCPC computes with (spec/00_scope.md R11, R13).
Every value is unsigned; lengths, offsets and cursors are plain natural numbers (R15), never bit vectors. -/

namespace Sys2Proof

/-- One byte of a frame or of a byte window. -/
abbrev Byte := BitVec 8

/-- A u16: a 16-bit wire field, register field or host address. -/
abbrev Half := BitVec 16

/-- A 32-bit host register value, a u32 wire field or a command word (R11 "register width"). -/
abbrev Word := BitVec 32

/-- A MAC address read big-endian (R29): the byte sent first is the most significant. -/
abbrev Mac := BitVec 48

end Sys2Proof
end

