-- ==== Sys2Proof/Syntax.lean ====
section
/-! DEFINITION. The instructions of DCPC: one constructor per row of spec/opcode_table.json.
The rows of format cmd are the command words a host writes to CMD (spec/30_encoding.md R71, R72, R73). The rows of format
dcp_block are the block kinds PARSE dispatches on (R98); a block's operands in its header are the pair (option, suboption)
and the block-length L (R87), its start is where the parser's cursor stands (spec/42_block_parser.md R174). -/

namespace Sys2Proof

/-- One constructor per row of the opcode and dispatch table. -/
inductive Instr where
  /-- NOP, command word 0 (R200). -/
  | nop
  /-- ENC_IDENTIFY, command word 1 (R131). -/
  | encIdentify
  /-- ENC_FLASHLED, command word 2 (R132). -/
  | encFlashled
  /-- VALIDATE, command word 3 (R140). -/
  | validate
  /-- PARSE, command word 4 (R170). -/
  | parse
  /-- ILLEGAL: every other command word, `reserved` its bits 31:4 and `opcode` its bits 3:0 (R73, R201). -/
  | illegal (reserved : BitVec 28) (opcode : BitVec 4)
  /-- BLK_DEVPROP_CUSTOM, key 0x0201, block-length `len` (R181). -/
  | blkDevpropCustom (len : Half)
  /-- BLK_DEVPROP_NAME, key 0x0202, block-length `len` (R182). -/
  | blkDevpropName (len : Half)
  /-- BLK_DEVPROP_ID, key 0x0203, block-length `len` (R183). -/
  | blkDevpropId (len : Half)
  /-- BLK_DEVPROP_ROLE, key 0x0204, block-length `len` (R184). -/
  | blkDevpropRole (len : Half)
  /-- BLK_ADDRESS_IP, key 0x0102, block-length `len` (R185). -/
  | blkAddressIp (len : Half)
  /-- BLK_OTHER: every other key `option ++ suboption`, block-length `len` (R186). -/
  | blkOther (option suboption : Byte) (len : Half)
deriving DecidableEq, Repr

end Sys2Proof
end

