-- ==== Sys2Proof/WellFormed.lean ====
section
/-! DEFINITION. Which terms of Instr stand for an encoding. Only the two catch-all rows of the table can be ill-formed:
ILLEGAL must not hold a word of R72, BLK_OTHER must not hold a key of R98. -/

namespace Sys2Proof

/-- The word is none of the five rows of R72: a reserved bit is set, or OPCODE is in 0x5..0xF (R73). -/
def isIllegalWord (reserved : BitVec 28) (opcode : BitVec 4) : Bool :=
  reserved != 0#28 || decide (5 ≤ opcode.toNat)

/-- The five dispatch keys of R98 that have a meaning of their own. -/
def knownKeys : List Half := [0x0201#16, 0x0202#16, 0x0203#16, 0x0204#16, 0x0102#16]

/-- The pair (option, suboption) is "any other" in R98. -/
def isOtherKey (option suboption : Byte) : Bool := !knownKeys.contains (option ++ suboption)

/-- The well-formedness check of an instruction. -/
def Instr.wf : Instr → Bool
  | .nop => true
  | .encIdentify => true
  | .encFlashled => true
  | .validate => true
  | .parse => true
  | .illegal reserved opcode => isIllegalWord reserved opcode
  | .blkDevpropCustom _ => true
  | .blkDevpropName _ => true
  | .blkDevpropId _ => true
  | .blkDevpropRole _ => true
  | .blkAddressIp _ => true
  | .blkOther option suboption _ => isOtherKey option suboption

end Sys2Proof
end

