-- ==== Sys2Proof/Decode.lean ====
section
/-! DEFINITION. The decoder and the encoder (spec/30_encoding.md R71, R72, R73, R87, R98).
DCPC has two encoding spaces: the 32-bit command word the host writes to CMD, and the four-byte block header the parser
reads from the receive buffer in wire order. -/

namespace Sys2Proof

/-- What one instruction is written as: a command word, or the bytes of a block header in wire order
(DESIGN CHOICE, safe; log entry 8). -/
inductive Code where
  | command (w : Word)
  | block (header : List Byte)
deriving DecidableEq, Repr

/-- Why bytes do not decode. -/
inductive DecodeError where
  /-- Fewer than the four bytes of a block header (R87). Raised by `decodeBlockHeader`. Safe: PARSE never asks for it (R173). -/
  | blockHeaderTruncated
deriving DecidableEq, Repr

/-- The command a 32-bit word encodes (R71, R72, R73): total, every word outside the opcode map is ILLEGAL. -/
def decodeCommand (w : Word) : Instr :=
  let reserved := w.extractLsb' 4 28
  let opcode := w.extractLsb' 0 4
  if reserved = 0#28 then
    if opcode = 0#4 then .nop
    else if opcode = 1#4 then .encIdentify
    else if opcode = 2#4 then .encFlashled
    else if opcode = 3#4 then .validate
    else if opcode = 4#4 then .parse
    else .illegal reserved opcode
  else .illegal reserved opcode

/-- The block kind a header selects (R98): the key is `option ++ suboption`, option in bits 15:8. -/
def decodeBlock (option suboption : Byte) (len : Half) : Instr :=
  let key : Half := option ++ suboption
  if key = 0x0201#16 then .blkDevpropCustom len
  else if key = 0x0202#16 then .blkDevpropName len
  else if key = 0x0203#16 then .blkDevpropId len
  else if key = 0x0204#16 then .blkDevpropRole len
  else if key = 0x0102#16 then .blkAddressIp len
  else .blkOther option suboption len

/-- The block header at the front of a byte string and the bytes after it (R87; block-length is big-endian, R52). -/
def decodeBlockHeader : List Byte → Except DecodeError (Instr × List Byte)
  | option :: suboption :: lenHi :: lenLo :: rest => .ok (decodeBlock option suboption (lenHi ++ lenLo), rest)
  | _ => .error .blockHeaderTruncated

/-- The decoder: total on any word and on any bytes. -/
def decode : Code → Except DecodeError Instr
  | .command w => .ok (decodeCommand w)
  | .block header => (decodeBlockHeader header).map Prod.fst

/-- The four header bytes of a block (R87). -/
def blockHeaderBytes (key len : Half) : List Byte :=
  [key.extractLsb' 8 8, key.extractLsb' 0 8, len.extractLsb' 8 8, len.extractLsb' 0 8]

/-- The encoding of an instruction (R72 for commands, R87 and R98 for blocks). -/
def encode : Instr → Code
  | .nop => .command 0#32
  | .encIdentify => .command 1#32
  | .encFlashled => .command 2#32
  | .validate => .command 3#32
  | .parse => .command 4#32
  | .illegal reserved opcode => .command (reserved ++ opcode)
  | .blkDevpropCustom len => .block (blockHeaderBytes 0x0201#16 len)
  | .blkDevpropName len => .block (blockHeaderBytes 0x0202#16 len)
  | .blkDevpropId len => .block (blockHeaderBytes 0x0203#16 len)
  | .blkDevpropRole len => .block (blockHeaderBytes 0x0204#16 len)
  | .blkAddressIp len => .block (blockHeaderBytes 0x0102#16 len)
  | .blkOther option suboption len => .block (blockHeaderBytes (option ++ suboption) len)

/-- The instruction of a word numbered as spec/opcode_table.json numbers it: 32 bits are a command word, 16 bits a
dispatch key with the block-length bytes zero (log entry 8). -/
def decodeTableWord (nbits w : Nat) : Option Instr :=
  if nbits = 32 ∧ w < 2 ^ 32 then (decode (.command (BitVec.ofNat 32 w))).toOption
  else if nbits = 16 ∧ w < 2 ^ 16 then (decode (.block (blockHeaderBytes (BitVec.ofNat 16 w) 0#16))).toOption
  else none

end Sys2Proof
end

