-- ==== Sys2Proof/Config.lean ====
section
/-! DEFINITION. What an instance of DCPC fixes (spec/00_scope.md R11, R12) and the values the spec leaves free.
The opaque constants have no body: nothing can be proved of them but what their types say, so every claim holds for every
instance and for every free value (sizes and xids: DESIGN CHOICE, safe; log entry 4). -/

namespace Sys2Proof

/-- XID_IDENTIFY, OPEN (R11, 92_eei_decisions.md D9): any 32-bit value. -/
opaque Config.xidIdentify : Word

/-- XID_FLASHLED, OPEN (R11, D9): any 32-bit value. -/
opaque Config.xidFlashled : Word

/-- How far RXBUF_SIZE lies above its lower bound 14; at most 16384 - 14 (R12). -/
opaque Config.rxbufExtra : Fin 16371

/-- How far TXBUF_SIZE lies above its lower bound 34; at most 16384 - 34 (R12). -/
opaque Config.txbufExtra : Fin 16351

/-- RXBUF_SIZE, a parameter with 14 ≤ RXBUF_SIZE ≤ 16384 (R11, R12, D10). -/
def Config.rxbufSize : Nat := Config.rxbufExtra.val + 14

/-- TXBUF_SIZE, a parameter with 34 ≤ TXBUF_SIZE ≤ 16384 (R11, R12, D10). -/
def Config.txbufSize : Nat := Config.txbufExtra.val + 34

/-- The free value of R49 and R62: what a read of RXBUF byte `i` that nothing has written since reset returns at draw
number `draw`. Different draws of one byte may differ (R62). UNSPECIFIED by the spec, so it has no body (DESIGN
CHOICE, safe; log entry 3). -/
opaque Config.rxFreeByte (draw i : Nat) : Byte

/-- The free value of R49 and R62 for an unwritten TXBUF byte (DESIGN CHOICE, safe; log entry 3). -/
opaque Config.txFreeByte (draw i : Nat) : Byte

end Sys2Proof
end

