-- ==== Sys2Proof/Machine/State.lean ====
section
/-! DEFINITION. The state of DCPC as plain data (spec/10_state.md), the reasons a step can stop, and the state after reset.
Reserved register bits read as 0 and ignore writes (R24), so only the named fields are held; the 32-bit register words are
formed in Machine/Bus.lean. -/

namespace Sys2Proof.Machine

/-- Why the machine stops with a fault. -/
inductive Fault where
  /-- The codec engine asked for RX[`index`] at or above RX_LEN, where R50 gives the read no meaning. Raised by the engine's
  byte read only. Safe: the model stops; no state that a run reaches raises it (R17, R151, R188; DESIGN CHOICE, log entry 5). -/
  | rxReadOutOfBounds (index : Nat)
deriving DecidableEq, Repr

/-- Why the model gives an instruction no meaning. -/
inductive Refusal where
  /-- The instruction of the table with this mnemonic has no meaning yet. Raised by `exec`'s refused arms only (none is left).
  Safe: the model stops. -/
  | notModelled (mnemonic : String)
deriving DecidableEq, Repr

/-- The codes STATUS.RESULT can hold (R210); their numbers are in Machine/Flags.lean. -/
inductive ResultCode where
  | ok | truncEth | truncVlan | truncProfinet | truncDcp | addrMismatch | protoMismatch | frameidMismatch | dlenExceeds
  | noView | illegalCmd
deriving DecidableEq, Repr

/-- The host-visible registers of R23, in address order. -/
inductive Reg where
  | cmd | status | ctrl | expFrameId | srcMacHi | srcMacLo | dstMacHi | dstMacLo | expMacHi | expMacLo | rxLen | txLen
  | viewSvc | viewXid | viewDelay | viewDlen | viewPoff | viewFrameId | rxSrcMacHi | rxSrcMacLo
  | dVendorId | dDeviceId | dRole | dIpAddr | dIpMask | dIpGw | dIpStatus | dNameLen | dVendorLen | cfg | xidIdCfg | xidFlCfg
deriving DecidableEq, Repr

/-- What the world outside does to DCPC: the four host accesses of R75 (R55 widths) and the reset input (R240). -/
inductive HostEvent where
  | r8 (addr : Half)
  | w8 (addr : Half) (data : Byte)
  | r32 (addr : Half)
  | w32 (addr : Half) (data : Word)
  | reset
deriving DecidableEq, Repr

/-- What DCPC answers to the last host access. -/
inductive Response where
  /-- No access since reset. -/
  | none
  /-- A write was accepted (or ignored without error, R24). -/
  | done
  /-- The value of an 8-bit read. -/
  | data8 (value : Byte)
  /-- The value of a 32-bit read. -/
  | data32 (value : Word)
  /-- BUS_ERROR (R219). -/
  | busError
deriving DecidableEq, Repr

/-- A 6-byte MAC address in a register pair (R29): `hi` is `*_HI[15:0]`, `lo` is `*_LO[31:0]`. -/
structure MacPair where
  hi : Half
  lo : Word
deriving DecidableEq, Repr

/-- The view registers, the result of a successful VALIDATE (R36 to R42). -/
structure View where
  /-- VIEW_SVC[15:0]: service-type in bits 15:8, service-id in bits 7:0 (R36). -/
  svc : Half
  /-- VIEW_XID (R37). -/
  xid : Word
  /-- VIEW_DELAY[15:0] (R38). -/
  delay : Half
  /-- VIEW_DLEN[15:0] (R39). -/
  dlen : Half
  /-- VIEW_POFF[15:0] (R40). -/
  poff : Half
  /-- VIEW_FRAME_ID[15:0] (R41). -/
  frameId : Half
  /-- RX_SRC_MAC_HI and RX_SRC_MAC_LO (R42). -/
  srcMac : MacPair
deriving DecidableEq, Repr

/-- A descriptor text field (R44): the 63-byte array and its length register. -/
structure TextField where
  bytes : Vector Byte 63
  len : Byte
deriving DecidableEq, Repr

/-- The descriptor register file (R43, R44). -/
structure Descriptor where
  vendorId : Half
  deviceId : Half
  role : Byte
  ipAddr : Word
  ipMask : Word
  ipGw : Word
  ipStatus : Half
  name : TextField
  vendor : TextField
deriving DecidableEq, Repr

/-- A byte buffer: the bytes written since reset, as (index, byte) pairs in strictly rising index order. An index that is
not listed has not been written (R49). -/
abbrev Memory := List Host.Cell

/-- The state of DCPC and of its host port. -/
structure State where
  /-- STATUS.RESULT, bits 7:0 (R26, R210). -/
  result : ResultCode
  /-- STATUS.VIEW_VALID, bit 8 (R26, R47). -/
  viewValid : Bool
  /-- STATUS.VLAN_PRESENT, bit 9 (R26). -/
  vlanPresent : Bool
  /-- STATUS.PARSE_OVERRUN, bit 10 (R26). -/
  parseOverrun : Bool
  /-- CTRL.EXP_MAC_EN, bit 0 (R27). -/
  expMacEn : Bool
  /-- EXP_FRAME_ID.FID, bits 15:0 (R28). -/
  expFrameId : Half
  /-- SRC_MAC (R30). -/
  srcMac : MacPair
  /-- DST_MAC (R31). -/
  dstMac : MacPair
  /-- EXP_MAC (R32). -/
  expMac : MacPair
  /-- RX_LEN.LEN, bits 15:0 (R33). -/
  rxLen : Half
  /-- TX_LEN.LEN, bits 15:0 (R34). -/
  txLen : Half
  /-- VIEW_* and RX_SRC_MAC (R36 to R42). -/
  view : View
  /-- D_* (R43, R44). -/
  desc : Descriptor
  /-- RXBUF, by buffer index (R45). -/
  rx : Memory
  /-- TXBUF, by buffer index (R46). -/
  tx : Memory
  /-- The block parser's cursor `c`, internal to one PARSE and 0 between commands (R22; DESIGN CHOICE, safe; log entry 6). -/
  cursor : Nat
  /-- MODEL'S OWN: what the host has still to do, in issue order (R63; DESIGN CHOICE, safe; log entry 1). -/
  pending : List HostEvent
  /-- MODEL'S OWN: the answer to the last host access (R219; DESIGN CHOICE, safe; log entry 2). -/
  response : Response
  /-- MODEL'S OWN: the number of the draw the free bytes of unwritten buffer memory come from
  (R62; DESIGN CHOICE, safe; log entry 3). -/
  draws : Nat
deriving DecidableEq, Repr

/-- 00:00:00:00:00:00. -/
def MacPair.zero : MacPair := { hi := 0#16, lo := 0#32 }

/-- Every VIEW_* register and RX_SRC_MAC at 0 (R49, R141). -/
def View.zero : View :=
  { svc := 0#16, xid := 0#32, delay := 0#16, dlen := 0#16, poff := 0#16, frameId := 0#16, srcMac := MacPair.zero }

/-- An empty text: length 0 and all bytes 0 (R44). -/
def TextField.empty : TextField := { bytes := Vector.replicate 63 0#8, len := 0#8 }

/-- The default descriptor, "All fields default to zero/empty" (R43, R49). -/
def Descriptor.empty : Descriptor :=
  { vendorId := 0#16, deviceId := 0#16, role := 0#8, ipAddr := 0#32, ipMask := 0#32, ipGw := 0#32, ipStatus := 0#16,
    name := TextField.empty, vendor := TextField.empty }

/-- The machine right after reset (R49, R241): every register 0, nothing of RXBUF or TXBUF written, nothing pending at the
host port (the model's own fields: DESIGN CHOICE, unsafe; log entry 15). -/
def State.reset : State :=
  { result := .ok, viewValid := false, vlanPresent := false, parseOverrun := false, expMacEn := false,
    expFrameId := 0#16, srcMac := MacPair.zero, dstMac := MacPair.zero, expMac := MacPair.zero, rxLen := 0#16,
    txLen := 0#16, view := View.zero, desc := Descriptor.empty, rx := [], tx := [], cursor := 0, pending := [],
    response := .none, draws := 0 }

end Sys2Proof.Machine
end

