-- ==== Sys2Proof/Machine/Ops.lean ====
section
/-! DEFINITION. The named operations over the buffers and the outcomes every meaning uses: the byte store and its canonical
form, the engine's early end with a result code (`raise Reject`, spec/60_exceptions.md R213), which is what DCPC has in place
of an exception (R217: no state is saved, no mode changes, control goes nowhere, and there is no return from it, R218). -/

namespace Sys2Proof.Machine

/-- The byte a buffer holds at an index, or nothing where no byte has been written since reset (R49, R62). -/
def Memory.read : Memory → Nat → Option Byte
  | [], _ => none
  | (a, b) :: rest, i => if i = a then some b else Memory.read rest i

/-- Writes one byte, keeping the indices strictly rising. -/
def Memory.write : Memory → Nat → Byte → Memory
  | [], i, v => [(i, v)]
  | (a, b) :: rest, i, v =>
    if i < a then (i, v) :: (a, b) :: rest
    else if i = a then (i, v) :: rest
    else (a, b) :: Memory.write rest i v

/-- Writes consecutive bytes from an index on. -/
def Memory.writeBytes : Memory → Nat → List Byte → Memory
  | m, _, [] => m
  | m, i, v :: vs => Memory.writeBytes (m.write i v) (i + 1) vs

/-- The canonical form: indices strictly rising. No listed entry can equal what an unlisted index reads as, because that is
no fixed byte (R62; log entry 3). -/
abbrev Memory.wf (m : Memory) : Prop := (m.map Prod.fst).Pairwise (· < ·)

/-- Every written index lies inside a buffer of this capacity (R61). -/
abbrev Memory.within (m : Memory) (capacity : Nat) : Prop := ∀ p ∈ m, p.1 < capacity

/-- The `n` bytes of a value, most significant first (R51). -/
def bytesBE {w : Nat} (n : Nat) (v : BitVec w) : List Byte :=
  (List.range n).map fun k => v.extractLsb' (8 * (n - 1 - k)) 8

/-- `MemWrite(TX, a, n, v)`: `n` big-endian bytes at index `a` (R51, R52, R58: no alignment). -/
def memWrite (m : Memory) (a n : Nat) {w : Nat} (v : BitVec w) : Memory := m.writeBytes a (bytesBE n v)

/-- What RX[i] reads as: the byte written, or the free byte of this draw (R62). -/
def State.rxAt (s : State) (i : Nat) : Byte := (s.rx.read i).getD (Config.rxFreeByte s.draws i)

/-- What TX[i] reads as. -/
def State.txAt (s : State) (i : Nat) : Byte := (s.tx.read i).getD (Config.txFreeByte s.draws i)

/-- STATUS.RESULT <- code. -/
def State.setResult (s : State) (code : ResultCode) : State := { s with result := code }

/-- How a command's work can end early: `raise Reject(code)`, or a read R50 gives no meaning. -/
inductive Stop where
  | reject (code : ResultCode)
  | fault (f : Fault)
deriving DecidableEq, Repr

/-- Work of the codec engine that may end early. -/
abbrev Engine (α : Type) := Except Stop α

/-- `if ¬ c: raise Reject(code)`, the gate of every check of VALIDATE. -/
def require (c : Prop) [Decidable c] (code : ResultCode) : Engine Unit :=
  if c then .ok () else .error (.reject code)

/-- `raise Reject(code)` (R213, R217): RESULT takes the code, the writes made before it stand, the command ends there. It is
the one operation every rejection, NO_VIEW and ILLEGAL_CMD goes through. -/
def raiseReject (code : ResultCode) (s : State) : Host.Outcome State Fault Refusal := .next (s.setResult code)

/-- The end of a command that started its fallible work in `s`: the work's own state, a rejection (whose earlier writes are
those of `s`), or the fault of an undefined read. -/
def conclude (s : State) : Engine State → Host.Outcome State Fault Refusal
  | .ok t => .next t
  | .error (.reject code) => raiseReject code s
  | .error (.fault f) => .fault f

end Sys2Proof.Machine
end

