-- ==== Sys2Proof/Machine/Operands.lean ====
section
/-! DEFINITION. The operand forms: receive-buffer fields (spec/20_memory.md R50, R52, R58; spec/30_encoding.md R99), byte
strings, MAC register pairs (spec/10_state.md R29) and text fields (R44, spec/42_block_parser.md R180). A command word
carries no operand (R74). -/

namespace Sys2Proof.Machine

/-- RX[i] as the engine reads it: defined only below RX_LEN (R45, R50, R61). -/
def rxByte (s : State) (i : Nat) : Engine Byte :=
  if i < s.rxLen.toNat then .ok (s.rxAt i) else .error (.fault (.rxReadOutOfBounds i))

/-- `MemRead(RX, a, 2)`, big-endian. -/
def rx16 (s : State) (a : Nat) : Engine Half := do
  let hi ← rxByte s a
  let lo ← rxByte s (a + 1)
  return hi ++ lo

/-- `MemRead(RX, a, 4)`, big-endian. -/
def rx32 (s : State) (a : Nat) : Engine Word := do
  let hi ← rx16 s a
  let lo ← rx16 s (a + 2)
  return hi ++ lo

/-- `MemRead(RX, a, 6)`, a MAC address in wire order. -/
def rx48 (s : State) (a : Nat) : Engine Mac := do
  let hi ← rx16 s a
  let lo ← rx32 s (a + 2)
  return hi ++ lo

/-- `Bytes(RX, a, n)` (R16). -/
def rxBytes (s : State) : (a n : Nat) → Engine (List Byte)
  | _, 0 => .ok []
  | a, n + 1 => do
    let b ← rxByte s a
    let bs ← rxBytes s (a + 1) n
    return b :: bs

/-- The u16 at RX[a], RX[a+1] where both may be read. -/
def State.rxU16 (s : State) (a : Nat) : Half := s.rxAt a ++ s.rxAt (a + 1)

/-- The u32 at RX[a..a+3] where all may be read. -/
def State.rxU32 (s : State) (a : Nat) : Word := s.rxU16 a ++ s.rxU16 (a + 2)

/-- The MAC address at RX[a..a+5] where all may be read. -/
def State.rxMac (s : State) (a : Nat) : Mac := s.rxU16 a ++ s.rxU32 (a + 2)

/-- The byte string RX[a..a+n-1] where all may be read. -/
def State.rxString (s : State) (a n : Nat) : List Byte := (List.range n).map fun k => s.rxAt (a + k)

/-- The 48-bit value `HI[15:0] ++ LO[31:0]` of a register pair (R29). -/
def MacPair.value (m : MacPair) : Mac := m.hi ++ m.lo

/-- A MAC address packed into a register pair (R29). -/
def MacPair.ofMac (m : Mac) : MacPair := { hi := m.extractLsb' 32 16, lo := m.extractLsb' 0 32 }

/-- `SetText(X, s)` (R180): the whole field is replaced, the bytes after the string are 0. -/
def TextField.ofBytes (text : List Byte) : TextField :=
  { bytes := Vector.ofFn fun i => text.getD i.val 0#8, len := BitVec.ofNat 8 text.length }

/-- The byte string a text field holds, `D_X[0 .. D_X_LEN-1]` (R44). -/
def TextField.text (t : TextField) : List Byte := t.bytes.toList.take t.len.toNat

end Sys2Proof.Machine
end

