-- ==== Sys2Proof/Machine/Flags.lean ====
section
/-! DEFINITION. STATUS: the result codes' numbers (spec/60_exceptions.md R210), the register word (spec/10_state.md R26) and
the updates of its flags (R26, R47, R141). DCPC has no other flag. -/

namespace Sys2Proof.Machine

/-- The 8-bit number of a result code (R210). -/
def ResultCode.code : ResultCode → Byte
  | .ok => 0x00#8
  | .truncEth => 0x01#8
  | .truncVlan => 0x02#8
  | .truncProfinet => 0x03#8
  | .truncDcp => 0x04#8
  | .addrMismatch => 0x05#8
  | .protoMismatch => 0x06#8
  | .frameidMismatch => 0x07#8
  | .dlenExceeds => 0x08#8
  | .noView => 0x10#8
  | .illegalCmd => 0x11#8

/-- The STATUS register word: RESULT in 7:0, VIEW_VALID in 8, VLAN_PRESENT in 9, PARSE_OVERRUN in 10, the rest 0 (R26). -/
def State.statusWord (s : State) : Word :=
  0#21 ++ BitVec.ofBool s.parseOverrun ++ BitVec.ofBool s.vlanPresent ++ BitVec.ofBool s.viewValid ++ s.result.code

/-- What a host write of RXBUF or RX_LEN does to STATUS: VIEW_VALID <- 0, VLAN_PRESENT unchanged (R26, R47). -/
def State.dropView (s : State) : State := { s with viewValid := false }

/-- The start of every VALIDATE: the view registers, VIEW_VALID and VLAN_PRESENT set to 0 (R141). -/
def State.clearView (s : State) : State :=
  { s with view := View.zero, viewValid := false, vlanPresent := false }

/-- Step 7 of VALIDATE: the view, VLAN_PRESENT, VIEW_VALID and RESULT = OK (R148). -/
def State.acceptView (s : State) (view : View) (vlan : Bool) : State :=
  { s with view := view, vlanPresent := vlan, viewValid := true, result := .ok }

/-- A parsed descriptor field takes its value: the descriptor is replaced, no flag is written (R181 to R185). -/
def State.setDesc (s : State) (desc : Descriptor) : State := { s with desc := desc }

end Sys2Proof.Machine
end

