-- ==== Sys2Proof/Machine/Bus.lean ====
section
/-! DEFINITION. The host port: the address map (spec/20_memory.md R54 to R57), register reads and writes (spec/10_state.md R23
to R44), the byte windows, BUS_ERROR (spec/60_exceptions.md R219), the reset input (spec/70_reset_and_hazards.md R240), and
how the next host event is taken (R63). -/

namespace Sys2Proof.Machine

/-- The address of a register (R23). -/
def Reg.addr : Reg → Half
  | .cmd => 0x000#16
  | .status => 0x004#16
  | .ctrl => 0x008#16
  | .expFrameId => 0x00C#16
  | .srcMacHi => 0x010#16
  | .srcMacLo => 0x014#16
  | .dstMacHi => 0x018#16
  | .dstMacLo => 0x01C#16
  | .expMacHi => 0x020#16
  | .expMacLo => 0x024#16
  | .rxLen => 0x028#16
  | .txLen => 0x02C#16
  | .viewSvc => 0x030#16
  | .viewXid => 0x034#16
  | .viewDelay => 0x038#16
  | .viewDlen => 0x03C#16
  | .viewPoff => 0x040#16
  | .viewFrameId => 0x044#16
  | .rxSrcMacHi => 0x048#16
  | .rxSrcMacLo => 0x04C#16
  | .dVendorId => 0x050#16
  | .dDeviceId => 0x054#16
  | .dRole => 0x058#16
  | .dIpAddr => 0x05C#16
  | .dIpMask => 0x060#16
  | .dIpGw => 0x064#16
  | .dIpStatus => 0x068#16
  | .dNameLen => 0x06C#16
  | .dVendorLen => 0x070#16
  | .cfg => 0x074#16
  | .xidIdCfg => 0x078#16
  | .xidFlCfg => 0x07C#16

/-- Every register, in address order (R23). -/
def allRegs : List Reg :=
  [.cmd, .status, .ctrl, .expFrameId, .srcMacHi, .srcMacLo, .dstMacHi, .dstMacLo, .expMacHi, .expMacLo, .rxLen, .txLen,
   .viewSvc, .viewXid, .viewDelay, .viewDlen, .viewPoff, .viewFrameId, .rxSrcMacHi, .rxSrcMacLo] ++
  [.dVendorId, .dDeviceId, .dRole, .dIpAddr, .dIpMask, .dIpGw, .dIpStatus, .dNameLen, .dVendorLen, .cfg, .xidIdCfg,
   .xidFlCfg]

/-- The register at a host address, if a 32-bit access may go there (R23, R55). -/
def regAt (a : Half) : Option Reg := allRegs.find? fun r => r.addr == a

/-- A byte of one of the byte windows. -/
inductive WindowByte where
  | name (i : Fin 63)
  | vendor (i : Fin 63)
  | rx (i : Nat)
  | tx (i : Nat)
deriving DecidableEq, Repr

/-- The window byte at a host address, if an 8-bit access may go there (R56). -/
def windowAt (a : Half) : Option WindowByte :=
  let n := a.toNat
  if h : 0x0100 ≤ n ∧ n - 0x0100 < 63 then some (.name ⟨n - 0x0100, h.2⟩)
  else if h : 0x0140 ≤ n ∧ n - 0x0140 < 63 then some (.vendor ⟨n - 0x0140, h.2⟩)
  else if 0x4000 ≤ n ∧ n - 0x4000 < Config.rxbufSize then some (.rx (n - 0x4000))
  else if 0x8000 ≤ n ∧ n - 0x8000 < Config.txbufSize then some (.tx (n - 0x8000))
  else none

/-- What a 32-bit read of a register returns (R24 to R44): the named fields, zero-extended. -/
def readReg (s : State) : Reg → Word
  | .cmd => 0#32
  | .status => s.statusWord
  | .ctrl => (BitVec.ofBool s.expMacEn).setWidth 32
  | .expFrameId => s.expFrameId.setWidth 32
  | .srcMacHi => s.srcMac.hi.setWidth 32
  | .srcMacLo => s.srcMac.lo
  | .dstMacHi => s.dstMac.hi.setWidth 32
  | .dstMacLo => s.dstMac.lo
  | .expMacHi => s.expMac.hi.setWidth 32
  | .expMacLo => s.expMac.lo
  | .rxLen => s.rxLen.setWidth 32
  | .txLen => s.txLen.setWidth 32
  | .viewSvc => s.view.svc.setWidth 32
  | .viewXid => s.view.xid
  | .viewDelay => s.view.delay.setWidth 32
  | .viewDlen => s.view.dlen.setWidth 32
  | .viewPoff => s.view.poff.setWidth 32
  | .viewFrameId => s.view.frameId.setWidth 32
  | .rxSrcMacHi => s.view.srcMac.hi.setWidth 32
  | .rxSrcMacLo => s.view.srcMac.lo
  | .dVendorId => s.desc.vendorId.setWidth 32
  | .dDeviceId => s.desc.deviceId.setWidth 32
  | .dRole => s.desc.role.setWidth 32
  | .dIpAddr => s.desc.ipAddr
  | .dIpMask => s.desc.ipMask
  | .dIpGw => s.desc.ipGw
  | .dIpStatus => s.desc.ipStatus.setWidth 32
  | .dNameLen => s.desc.name.len.setWidth 32
  | .dVendorLen => s.desc.vendor.len.setWidth 32
  | .cfg => BitVec.ofNat 16 Config.txbufSize ++ BitVec.ofNat 16 Config.rxbufSize
  | .xidIdCfg => Config.xidIdentify
  | .xidFlCfg => Config.xidFlashled

/-- A 32-bit write of a register other than CMD (R24, R27 to R33): an RW register takes its fields, RX_LEN takes
`min(w, RXBUF_SIZE)` and drops the view, a read-only register ignores the write. CMD's own effect is the command (R25), which
`step` runs. -/
def writeReg (w : Word) (s : State) : Reg → State
  | .ctrl => { s with expMacEn := w.getLsbD 0 }
  | .expFrameId => { s with expFrameId := w.extractLsb' 0 16 }
  | .srcMacHi => { s with srcMac := { s.srcMac with hi := w.extractLsb' 0 16 } }
  | .srcMacLo => { s with srcMac := { s.srcMac with lo := w } }
  | .dstMacHi => { s with dstMac := { s.dstMac with hi := w.extractLsb' 0 16 } }
  | .dstMacLo => { s with dstMac := { s.dstMac with lo := w } }
  | .expMacHi => { s with expMac := { s.expMac with hi := w.extractLsb' 0 16 } }
  | .expMacLo => { s with expMac := { s.expMac with lo := w } }
  | .rxLen => { s.dropView with rxLen := BitVec.ofNat 16 (min w.toNat Config.rxbufSize) }
  | .cmd | .status | .txLen | .viewSvc | .viewXid | .viewDelay | .viewDlen | .viewPoff | .viewFrameId | .rxSrcMacHi
  | .rxSrcMacLo | .dVendorId | .dDeviceId | .dRole | .dIpAddr | .dIpMask | .dIpGw | .dIpStatus | .dNameLen | .dVendorLen
  | .cfg | .xidIdCfg | .xidFlCfg => s

/-- What an 8-bit read of a window byte returns (R44, R45, R46, R62). -/
def readWindow (s : State) : WindowByte → Byte
  | .name i => s.desc.name.bytes[i]
  | .vendor i => s.desc.vendor.bytes[i]
  | .rx i => s.rxAt i
  | .tx i => s.txAt i

/-- An 8-bit write of a window byte: RXBUF takes the byte and drops the view (R45, R47), the other windows ignore it (R24). -/
def writeWindow (v : Byte) (s : State) : WindowByte → State
  | .rx i => { s.dropView with rx := s.rx.write i v }
  | .name _ | .vendor _ | .tx _ => s

/-- The answer of the host port to the access. -/
def State.respond (s : State) (r : Response) : State := { s with response := r }

/-- The reset input (R240): every register as R49 says, the buffers' contents unspecified again. What the host has still to do
and the draw number are not DCPC's registers and stay (DEDUCED, unsafe; log entry 9). -/
def State.afterReset (s : State) : State := { State.reset with pending := s.pending, draws := s.draws }

/-- A host event other than a CMD write, performed whole (R59): its effect and the answer; an access R55 to R57 refuse
changes no state and answers BUS_ERROR (R219; DESIGN CHOICE, safe; log entry 2). -/
def hostEvent (s : State) : HostEvent → State
  | .r32 a =>
    match regAt a with
    | some r => s.respond (.data32 (readReg s r))
    | none => s.respond .busError
  | .w32 a w =>
    match regAt a with
    | some r => (writeReg w s r).respond .done
    | none => s.respond .busError
  | .r8 a =>
    match windowAt a with
    | some b => s.respond (.data8 (readWindow s b))
    | none => s.respond .busError
  | .w8 a v =>
    match windowAt a with
    | some b => (writeWindow v s b).respond .done
    | none => s.respond .busError
  | .reset => s.afterReset

/-- The command word of an event that is a 32-bit write to CMD (R25). -/
def commandOf : HostEvent → Option Word
  | .w32 a w => if regAt a = some .cmd then some w else none
  | .r8 _ => none
  | .w8 _ _ => none
  | .r32 _ => none
  | .reset => none

/-- DCPC takes the next host event: it is no longer pending, and the free bytes it may read are a fresh draw (R62). -/
def State.take (s : State) (rest : List HostEvent) : State := { s with pending := rest, draws := s.draws + 1 }

/-- The host's next event is the CMD write of this word (withFetchWord of a command). -/
def State.issueCommand (s : State) (w : Word) : State := { s with pending := .w32 Reg.cmd.addr w :: s.pending }

/-- A frame whose payload is one block header and one more byte is validated, and the host's next event is the CMD write of
PARSE (withFetchWord of a block kind; log entry 7): the loop needs five bytes to read a header (R173). -/
def State.issueBlock (s : State) (header : List Byte) : State :=
  { s with
    rx := s.rx.writeBytes 26 (header ++ [0#8]), rxLen := 31#16, viewValid := true,
    view := { s.view with poff := 26#16, dlen := 5#16 },
    pending := .w32 Reg.cmd.addr 4#32 :: s.pending }

/-- The state whose very next step runs the instruction of a table word (log entry 7). -/
def State.loadTableWord (s : State) (nbits w : Nat) : State :=
  if nbits = 32 then s.issueCommand (BitVec.ofNat 32 w)
  else if nbits = 16 then s.issueBlock (blockHeaderBytes (BitVec.ofNat 16 w) 0#16)
  else s

end Sys2Proof.Machine
end

