-- ==== Sys2Proof/Machine/Control.lean ====
section
/-! DEFINITION. The control commands (spec/43_control.md). -/

namespace Sys2Proof.Machine

/-- NOP (R200): nothing is written, STATUS.RESULT included. -/
def execNop (s : State) : Host.Outcome State Fault Refusal := .next s

/-- An illegal command word (R201): RESULT <- ILLEGAL_CMD and nothing else, whatever the word. -/
def execIllegal (_reserved : BitVec 28) (_opcode : BitVec 4) (s : State) : Host.Outcome State Fault Refusal :=
  raiseReject .illegalCmd s

end Sys2Proof.Machine
end

