-- ==== Sys2Proof/Machine/Blocks.lean ====
section
/-! DEFINITION. The block kinds of PARSE (spec/42_block_parser.md R180 to R186; body layouts spec/30_encoding.md R91 to R94).
A block starts at `b = VIEW_POFF + c` with `c` the parser's cursor (R174); its body follows its four header bytes.
As an instruction of its own a block kind runs at the cursor State holds (DESIGN CHOICE, safe; log entry 16). -/

namespace Sys2Proof.Machine

/-- The start `b` of the block under the cursor, an index of the receive buffer (R174). -/
def State.blockStart (s : State) : Nat := s.view.poff.toNat + s.cursor

/-- The text of a Custom or Name block, where its block-length is in 2..63 (R91, R181, R182): `L - 2` bytes from `b + 6`. -/
def textOfBlock (s : State) (len : Half) : Engine (Option TextField) :=
  if 2 ≤ len.toNat ∧ len.toNat ≤ 63 then do
    let text ← rxBytes s (s.blockStart + 6) (len.toNat - 2)
    return some (TextField.ofBytes text)
  else .ok none

/-- Device-Properties / Custom (R181): the vendor value, or nothing where L is out of range. -/
def blockCustom (len : Half) (s : State) : Engine State := do
  match ← textOfBlock s len with
  | some text => return s.setDesc { s.desc with vendor := text }
  | none => return s

/-- Device-Properties / Name (R182): the station name, or nothing where L is out of range. -/
def blockName (len : Half) (s : State) : Engine State := do
  match ← textOfBlock s len with
  | some text => return s.setDesc { s.desc with name := text }
  | none => return s

/-- Device-Properties / Id (R183): vendor id and device id, where L ≥ 6. -/
def blockId (len : Half) (s : State) : Engine State :=
  if 6 ≤ len.toNat then do
    let vendorId ← rx16 s (s.blockStart + 6)
    let deviceId ← rx16 s (s.blockStart + 8)
    return s.setDesc { s.desc with vendorId := vendorId, deviceId := deviceId }
  else .ok s

/-- Device-Properties / Role (R184): the role byte, where L ≥ 3. -/
def blockRole (len : Half) (s : State) : Engine State :=
  if 3 ≤ len.toNat then do
    let role ← rxByte s (s.blockStart + 6)
    return s.setDesc { s.desc with role := role }
  else .ok s

/-- Address / IP (R185): block-info, address, mask and gateway, where L ≥ 14. -/
def blockIp (len : Half) (s : State) : Engine State :=
  if 14 ≤ len.toNat then do
    let ipStatus ← rx16 s (s.blockStart + 4)
    let ipAddr ← rx32 s (s.blockStart + 6)
    let ipMask ← rx32 s (s.blockStart + 10)
    let ipGw ← rx32 s (s.blockStart + 14)
    return s.setDesc { s.desc with ipStatus := ipStatus, ipAddr := ipAddr, ipMask := ipMask, ipGw := ipGw }
  else .ok s

/-- BLK_DEVPROP_CUSTOM as an instruction of its own. -/
def execBlkDevpropCustom (len : Half) (s : State) : Host.Outcome State Fault Refusal := conclude s (blockCustom len s)

/-- BLK_DEVPROP_NAME as an instruction of its own. -/
def execBlkDevpropName (len : Half) (s : State) : Host.Outcome State Fault Refusal := conclude s (blockName len s)

/-- BLK_DEVPROP_ID as an instruction of its own. -/
def execBlkDevpropId (len : Half) (s : State) : Host.Outcome State Fault Refusal := conclude s (blockId len s)

/-- BLK_DEVPROP_ROLE as an instruction of its own. -/
def execBlkDevpropRole (len : Half) (s : State) : Host.Outcome State Fault Refusal := conclude s (blockRole len s)

/-- BLK_ADDRESS_IP as an instruction of its own. -/
def execBlkAddressIp (len : Half) (s : State) : Host.Outcome State Fault Refusal := conclude s (blockIp len s)

/-- BLK_OTHER (R186): the descriptor is not modified, no byte of the body is read. -/
def execBlkOther (_option _suboption : Byte) (_len : Half) (s : State) : Host.Outcome State Fault Refusal := .next s

end Sys2Proof.Machine
end

