-- ==== Sys2Proof/Machine/Parser.lean ====
section
/-! DEFINITION. PARSE (spec/42_block_parser.md R170 to R179): the loop over the block sequence of the view. All lengths are
natural numbers (R15), so `4 + L + (L mod 2)` never wraps. -/

namespace Sys2Proof.Machine

/-- The bytes a block occupies: header, payload and pad (R87, R175, R176). -/
def blockSize (len : Half) : Nat := 4 + len.toNat + len.toNat % 2

/-- The payload bytes that remain from the cursor, `rem - c` of R170. -/
def State.remaining (s : State) : Nat := s.view.dlen.toNat - s.cursor

/-- The block header under the cursor: option, suboption, block-length (R174). -/
def readBlockHeader (s : State) : Engine (Byte × Byte × Half) := do
  let option ← rxByte s s.blockStart
  let suboption ← rxByte s (s.blockStart + 1)
  let len ← rx16 s (s.blockStart + 2)
  return (option, suboption, len)

/-- The dispatch of R177 on the pair (option, suboption); every other pair is skipped (R186). -/
def dispatchBlock (option suboption : Byte) (len : Half) (s : State) : Engine State :=
  match option.toNat, suboption.toNat with
  | 2, 1 => blockCustom len s
  | 2, 2 => blockName len s
  | 2, 3 => blockId len s
  | 2, 4 => blockRole len s
  | 1, 2 => blockIp len s
  | _, _ => .ok s

/-- c <- c + need (R176). -/
def State.advance (s : State) (need : Nat) : State := { s with cursor := s.cursor + need }

/-- The loop of R170 from the cursor on. Every turn that goes on adds at least 4 to the cursor (R178), so a fuel of the
remaining payload length is never what ends it (DEDUCED, safe; log entry 13). -/
def parseLoop : Nat → State → Engine State
  | 0, s => .ok { s with parseOverrun := false }
  | fuel + 1, s =>
    if s.remaining ≤ 4 then .ok { s with parseOverrun := false }
    else do
      let (option, suboption, len) ← readBlockHeader s
      if s.remaining < blockSize len then .ok { s with parseOverrun := true }
      else do
        let t ← dispatchBlock option suboption len s
        parseLoop fuel (t.advance (blockSize len))

/-- PARSE with a view (R172, R178, R179): the descriptor is emptied, the loop runs from cursor 0, RESULT is OK and the cursor
does not outlive the command (R22). -/
def parseView (s : State) : Engine State := do
  let t ← parseLoop s.view.dlen.toNat { s with desc := Descriptor.empty, cursor := 0 }
  return { t with cursor := 0, result := .ok }

/-- PARSE (R170): NO_VIEW and nothing else where there is no view (R171). -/
def execParse (s : State) : Host.Outcome State Fault Refusal :=
  if s.viewValid then conclude s (parseView s) else raiseReject .noView s

end Sys2Proof.Machine
end

