-- ==== Sys2Proof/Machine/Encoder.lean ====
section
/-! DEFINITION. The frame encoder commands (spec/40_encoder.md R130 to R132; frame images spec/30_encoding.md R100, R101).
TXBUF_SIZE ≥ 34 (R12), so neither can fail. -/

namespace Sys2Proof.Machine

/-- The PROFINET DCP Identify multicast address 01:0e:cf:00:00:00 (R95). -/
def dcpMulticast : Mac := 0x010ECF000000#48

/-- The all-ones broadcast address (R95). -/
def broadcastMac : Mac := 0xFFFFFFFFFFFF#48

/-- Ethertype PROFINET (R81). -/
def ethertypeProfinet : Half := 0x8892#16

/-- Ethertype of an 802.1Q tag (R81). -/
def ethertypeVlan : Half := 0x8100#16

/-- Frame-id DCP-Identify-Request (R84). -/
def frameIdIdentifyRequest : Half := 0xFEFE#16

/-- Frame-id DCP-Get/Set (R84). -/
def frameIdGetSet : Half := 0xFEFD#16

/-- The Ethernet, PROFINET and DCP headers of an untagged request, 26 bytes (R80, R83, R85, R96). -/
def writeRequestHeaders (m : Memory) (dst src : Mac) (frameId : Half) (serviceId : Byte) (xid : Word)
    (delay dlen : Half) : Memory :=
  let m := memWrite m 0 6 dst
  let m := memWrite m 6 6 src
  let m := memWrite m 12 2 ethertypeProfinet
  let m := memWrite m 14 2 frameId
  let m := memWrite m 16 1 serviceId
  let m := memWrite m 17 1 (0#8)
  let m := memWrite m 18 4 xid
  let m := memWrite m 22 2 delay
  memWrite m 24 2 dlen

/-- A DCP block header: option, suboption, block-length (R87). -/
def writeBlockHeader (m : Memory) (a : Nat) (option suboption : Byte) (len : Half) : Memory :=
  let m := memWrite m a 1 option
  let m := memWrite m (a + 1) 1 suboption
  memWrite m (a + 2) 2 len

/-- The end of an encoder command: TX_LEN and RESULT = OK (R131, R132). -/
def State.finishFrame (s : State) (tx : Memory) (length : Half) : State :=
  { s with tx := tx, txLen := length, result := .ok }

/-- TXBUF with the Identify request written at its start (R131, R100): the request headers and the All-Selector block (R89). -/
def State.identifyRequest (s : State) : Memory :=
  let m := writeRequestHeaders s.tx dcpMulticast s.srcMac.value frameIdIdentifyRequest 5#8 Config.xidIdentify 128#16 4#16
  writeBlockHeader m 26 0xFF#8 0xFF#8 0#16

/-- TXBUF with the flash-LED request written at its start (R132, R101): the request headers and the Control/Signal block
(R90). -/
def State.flashledRequest (s : State) : Memory :=
  let m := writeRequestHeaders s.tx s.dstMac.value s.srcMac.value frameIdGetSet 4#8 Config.xidFlashled 0#16 8#16
  let m := writeBlockHeader m 26 5#8 3#8 4#16
  let m := memWrite m 30 2 (0x0000#16)
  memWrite m 32 2 (0x0100#16)

/-- ENC_IDENTIFY (R131): the 30-byte Identify request. -/
def execEncIdentify (s : State) : Host.Outcome State Fault Refusal := .next (s.finishFrame s.identifyRequest 30#16)

/-- ENC_FLASHLED (R132): the 34-byte Control/Signal Set request. -/
def execEncFlashled (s : State) : Host.Outcome State Fault Refusal := .next (s.finishFrame s.flashledRequest 34#16)

end Sys2Proof.Machine
end

