-- ==== Sys2Proof/Machine/Validator.lean ====
section
/-! DEFINITION. VALIDATE (spec/41_validator.md R140 to R152). Each step of R140 is one definition; a step reads the receive
buffer only after the length check that guards it (R151). -/

namespace Sys2Proof.Machine

/-- The fields of a DCP header (R85). -/
structure DcpHeader where
  serviceId : Byte
  serviceType : Byte
  xid : Word
  delay : Half
  dlen : Half
deriving DecidableEq, Repr

/-- Step 1 (R142): at least 14 bytes. -/
def checkEthernet (s : State) : Engine Unit := require (14 ≤ s.rxLen.toNat) .truncEth

/-- The destinations VALIDATE accepts when it is given an expected local MAC (R143, 90_conflicts.md C1). -/
abbrev acceptedDestination (s : State) (dst : Mac) : Prop :=
  dst = s.expMac.value ∨ dst = broadcastMac ∨ dst = dcpMulticast

/-- Step 2 (R143): the destination MAC, checked only when CTRL.EXP_MAC_EN = 1. -/
def checkDestination (s : State) : Engine Unit :=
  if s.expMacEn then do
    let dst ← rx48 s 0
    require (acceptedDestination s dst) .addrMismatch
  else .ok ()

/-- Step 3 (R144): the ethertype, one optional 4-byte VLAN tag (R82; PRESUMED by the spec, unsafe;
log entry 10). Answers where the PROFINET header starts
and whether a tag was unwrapped. -/
def unwrapEthertype (s : State) : Engine (Nat × Bool) := do
  let et ← rx16 s 12
  if et = ethertypeVlan then do
    require (4 ≤ s.rxLen.toNat - 14) .truncVlan
    let inner ← rx16 s 16
    require (inner = ethertypeProfinet) .protoMismatch
    return (18, true)
  else do
    require (et = ethertypeProfinet) .protoMismatch
    return (14, false)

/-- Step 4 (R145): the PROFINET header at `p`, its frame-id against EXP_FRAME_ID.FID (0 means any). -/
def checkFrameId (s : State) (p : Nat) : Engine Half := do
  require (2 ≤ s.rxLen.toNat - p) .truncProfinet
  let fid ← rx16 s p
  require (s.expFrameId = 0#16 ∨ fid = s.expFrameId) .frameidMismatch
  return fid

/-- Step 5 (R146): the DCP header at `p` (R85). -/
def readDcpHeader (s : State) (p : Nat) : Engine DcpHeader := do
  require (10 ≤ s.rxLen.toNat - p) .truncDcp
  let serviceId ← rxByte s p
  let serviceType ← rxByte s (p + 1)
  let xid ← rx32 s (p + 2)
  let delay ← rx16 s (p + 6)
  let dlen ← rx16 s (p + 8)
  return { serviceId, serviceType, xid, delay, dlen }

/-- Step 6 (R147): the declared length fits in the bytes after the DCP header, `p` being the payload offset. -/
def checkDeclaredLength (s : State) (p : Nat) (dlen : Half) : Engine Unit :=
  require (dlen.toNat ≤ s.rxLen.toNat - p) .dlenExceeds

/-- The checks of R140 in their order, and step 7 (R148). -/
def validateFrame (s : State) : Engine State := do
  checkEthernet s
  checkDestination s
  let (p, vlan) ← unwrapEthertype s
  let fid ← checkFrameId s p
  let hdr ← readDcpHeader s (p + 2)
  checkDeclaredLength s (p + 12) hdr.dlen
  let src ← rx48 s 6
  return s.acceptView
    { svc := hdr.serviceType ++ hdr.serviceId, xid := hdr.xid, delay := hdr.delay, dlen := hdr.dlen,
      poff := BitVec.ofNat 16 (p + 12), frameId := fid, srcMac := MacPair.ofMac src } vlan

/-- VALIDATE (R140): the view is cleared before any check (R141), then the checks run; a rejection leaves the cleared view
and the reason. -/
def execValidate (s : State) : Host.Outcome State Fault Refusal := conclude s.clearView (validateFrame s.clearView)

end Sys2Proof.Machine
end

