-- ==== Sys2Proof/Machine/Dispatch.lean ====
section
/-! DEFINITION. One arm per instruction, each one call of its meaning. -/

namespace Sys2Proof.Machine

def exec (i : Instr) (s : State) : Host.Outcome State Fault Refusal :=
  match i with
  | .nop => Sys2Proof.Machine.execNop s
  | .encIdentify => Sys2Proof.Machine.execEncIdentify s
  | .encFlashled => Sys2Proof.Machine.execEncFlashled s
  | .validate => Sys2Proof.Machine.execValidate s
  | .parse => Sys2Proof.Machine.execParse s
  | .illegal reserved opcode => Sys2Proof.Machine.execIllegal reserved opcode s
  | .blkDevpropCustom len => Sys2Proof.Machine.execBlkDevpropCustom len s
  | .blkDevpropName len => Sys2Proof.Machine.execBlkDevpropName len s
  | .blkDevpropId len => Sys2Proof.Machine.execBlkDevpropId len s
  | .blkDevpropRole len => Sys2Proof.Machine.execBlkDevpropRole len s
  | .blkAddressIp len => Sys2Proof.Machine.execBlkAddressIp len s
  | .blkOther option suboption len => Sys2Proof.Machine.execBlkOther option suboption len s

end Sys2Proof.Machine
end

