-- ==== Sys2Proof/Machine/Step.lean ====
section
/-! DEFINITION. One step of DCPC: the host's next event is taken and performed whole (spec/70_reset_and_hazards.md R246,
spec/20_memory.md R59, R63). A CMD write runs the command its word encodes (R25); with nothing pending DCPC is idle (R226,
R242; DESIGN CHOICE, safe; log entry 12). -/

namespace Sys2Proof.Machine

def step (s : State) : Host.Outcome State Fault Refusal :=
  match s.pending with
  | [] => .next s
  | ev :: rest =>
    match commandOf ev with
    | some w => exec (decodeCommand w) ((s.take rest).respond .done)
    | none => .next (hostEvent (s.take rest) ev)

/-- The state whose next step runs the instruction of this table word (log entry 7). -/
def State.withFetchWord (s : State) (nbits w : Nat) : State := s.loadTableWord nbits w

end Sys2Proof.Machine
end

