-- ==== Sys2Proof/Safety.lean ====
section
/-! DEFINITION. The terms the claims use: what a reachable state keeps (the invariants), and what the spec's rules say of a
frame and of a block sequence, written over the bytes themselves and not over the engine's steps. -/

namespace Sys2Proof.Machine

/-- R44: the length is legal (0 to 61) and the bytes at indices from the length on are 0. -/
def TextField.wf (t : TextField) : Prop := t.len.toNat ≤ 61 ∧ ∀ i : Fin 63, t.len.toNat ≤ i.val → t.bytes[i] = 0#8

/-- What every state between two host events keeps. -/
structure Inv (s : State) : Prop where
  /-- RXBUF's store has its canonical form. -/
  rxWf : s.rx.wf
  /-- TXBUF's store has its canonical form. -/
  txWf : s.tx.wf
  /-- No byte of RXBUF outside its capacity is written (R45, R61). -/
  rxWithin : s.rx.within Config.rxbufSize
  /-- No byte of TXBUF outside its capacity is written (R46, R61). -/
  txWithin : s.tx.within Config.txbufSize
  /-- RX_LEN ≤ RXBUF_SIZE (R33). -/
  rxLenFits : s.rxLen.toNat ≤ Config.rxbufSize
  /-- TX_LEN is 0 since reset, or an encoder's length (R34). -/
  txLenLegal : s.txLen = 0#16 ∨ s.txLen = 30#16 ∨ s.txLen = 34#16
  /-- The station name is a well-formed text (R44). -/
  nameWf : s.desc.name.wf
  /-- The vendor value is a well-formed text (R44). -/
  vendorWf : s.desc.vendor.wf
  /-- A view starts at 26 untagged and 30 tagged (R40). -/
  viewOffset : s.viewValid = true → s.view.poff = if s.vlanPresent then 30#16 else 26#16
  /-- The payload of a view lies below RX_LEN (R39, R147). -/
  viewFits : s.viewValid = true → s.view.poff.toNat + s.view.dlen.toNat ≤ s.rxLen.toNat
  /-- The parser's cursor does not outlive a command (R22). -/
  cursorIdle : s.cursor = 0

/-- The 12 header bytes from the frame-id to dcp-data-length that a view describes, in wire order (R83, R85). -/
def View.headerBytes (v : View) : List Byte :=
  [v.frameId.extractLsb' 8 8, v.frameId.extractLsb' 0 8, v.svc.extractLsb' 0 8, v.svc.extractLsb' 8 8,
   v.xid.extractLsb' 24 8, v.xid.extractLsb' 16 8, v.xid.extractLsb' 8 8, v.xid.extractLsb' 0 8,
   v.delay.extractLsb' 8 8, v.delay.extractLsb' 0 8, v.dlen.extractLsb' 8 8, v.dlen.extractLsb' 0 8]

/-- The six bytes of a MAC register pair in wire order (R29). -/
def MacPair.wire (m : MacPair) : List Byte :=
  [m.hi.extractLsb' 8 8, m.hi.extractLsb' 0 8, m.lo.extractLsb' 24 8, m.lo.extractLsb' 16 8, m.lo.extractLsb' 8 8,
   m.lo.extractLsb' 0 8]

/-- The four bytes of a u32 in network byte order (R52). -/
def wireU32 (v : Word) : List Byte := [v.extractLsb' 24 8, v.extractLsb' 16 8, v.extractLsb' 8 8, v.extractLsb' 0 8]

/-- R26, R47: while VIEW_VALID is 1 the view registers describe the frame now in RXBUF, at every header byte that has been
written. -/
def ViewDescribesBuffer (s : State) : Prop :=
  s.viewValid = true →
    (∀ k b, k < 12 → s.rx.read (s.view.poff.toNat - 12 + k) = some b → s.view.headerBytes[k]? = some b) ∧
    (∀ k b, k < 6 → s.rx.read (6 + k) = some b → s.view.srcMac.wire[k]? = some b)

/-- The Identify request frame, byte for byte (R100). -/
def identifyFrame (src : MacPair) (xid : Word) : List Byte :=
  [0x01#8, 0x0E#8, 0xCF#8, 0x00#8, 0x00#8, 0x00#8] ++ src.wire ++ [0x88#8, 0x92#8, 0xFE#8, 0xFE#8, 0x05#8, 0x00#8] ++
  wireU32 xid ++ [0x00#8, 0x80#8, 0x00#8, 0x04#8, 0xFF#8, 0xFF#8, 0x00#8, 0x00#8]

/-- The flash-LED request frame, byte for byte (R101). -/
def flashledFrame (dst src : MacPair) (xid : Word) : List Byte :=
  dst.wire ++ src.wire ++ [0x88#8, 0x92#8, 0xFE#8, 0xFD#8, 0x04#8, 0x00#8] ++ wireU32 xid ++
  [0x00#8, 0x00#8, 0x00#8, 0x08#8, 0x05#8, 0x03#8, 0x00#8, 0x04#8, 0x00#8, 0x00#8, 0x01#8, 0x00#8]

/-- The frame in RXBUF carries an 802.1Q tag (R81, R97). -/
def State.tagged (s : State) : Bool := s.rxU16 12 == 0x8100#16

/-- The ethertype that must be PROFINET's: the encapsulated one under a tag (R82, R144). -/
def State.innerEthertype (s : State) : Half := if s.tagged then s.rxU16 16 else s.rxU16 12

/-- The frame index of the PROFINET header (R96). -/
def State.profinetOffset (s : State) : Nat := if s.tagged then 18 else 14

/-- The frame-id of the frame in RXBUF (R96). -/
def State.frameIdField (s : State) : Half := s.rxU16 s.profinetOffset

/-- dcp-data-length of the frame in RXBUF (R96). -/
def State.dlenField (s : State) : Half := s.rxU16 (s.profinetOffset + 10)

/-- The destination of the frame in RXBUF passes R143. -/
def State.destinationOk (s : State) : Bool :=
  !s.expMacEn || s.rxMac 0 == s.expMac.value || s.rxMac 0 == 0xFFFFFFFFFFFF#48 || s.rxMac 0 == 0x010ECF000000#48

/-- The result of VALIDATE by the priority list of R214 (causes R142 to R147). -/
def validateReason (s : State) : ResultCode :=
  if s.rxLen.toNat < 14 then .truncEth
  else if s.destinationOk = false then .addrMismatch
  else if s.tagged = true ∧ s.rxLen.toNat < 18 then .truncVlan
  else if s.innerEthertype ≠ 0x8892#16 then .protoMismatch
  else if s.rxLen.toNat < s.profinetOffset + 2 then .truncProfinet
  else if s.expFrameId ≠ 0#16 ∧ s.frameIdField ≠ s.expFrameId then .frameidMismatch
  else if s.rxLen.toNat < s.profinetOffset + 12 then .truncDcp
  else if s.rxLen.toNat < s.profinetOffset + 12 + s.dlenField.toNat then .dlenExceeds
  else .ok

/-- The view of the frame in RXBUF (R148, offsets R96). -/
def State.frameView (s : State) : View :=
  { svc := s.rxAt (s.profinetOffset + 3) ++ s.rxAt (s.profinetOffset + 2), xid := s.rxU32 (s.profinetOffset + 4),
    delay := s.rxU16 (s.profinetOffset + 8), dlen := s.dlenField,
    poff := if s.tagged then 30#16 else 26#16, frameId := s.frameIdField,
    srcMac := { hi := s.rxU16 6, lo := s.rxU32 8 } }

/-- The payload of the view, `Bytes(RX, VIEW_POFF, VIEW_DLEN)` (R40). -/
def State.payload (s : State) : List Byte := s.rxString s.view.poff.toNat s.view.dlen.toNat

/-- The u16 at an offset of a byte string. -/
def u16At (bytes : List Byte) (k : Nat) : Half := bytes.getD k 0#8 ++ bytes.getD (k + 1) 0#8

/-- The 4-byte field at an offset of a byte string. -/
def u32At (bytes : List Byte) (k : Nat) : Word := u16At bytes k ++ u16At bytes (k + 2)

/-- What one block does to the descriptor, from its payload bytes (R91 to R94, R181 to R186). -/
def describeBlock (option suboption : Byte) (body : List Byte) (d : Descriptor) : Descriptor :=
  if option = 2#8 ∧ suboption = 1#8 ∧ 2 ≤ body.length ∧ body.length ≤ 63 then
    { d with vendor := TextField.ofBytes (body.drop 2) }
  else if option = 2#8 ∧ suboption = 2#8 ∧ 2 ≤ body.length ∧ body.length ≤ 63 then
    { d with name := TextField.ofBytes (body.drop 2) }
  else if option = 2#8 ∧ suboption = 3#8 ∧ 6 ≤ body.length then
    { d with vendorId := u16At body 2, deviceId := u16At body 4 }
  else if option = 2#8 ∧ suboption = 4#8 ∧ 3 ≤ body.length then
    { d with role := body.getD 2 0#8 }
  else if option = 1#8 ∧ suboption = 2#8 ∧ 14 ≤ body.length then
    { d with ipStatus := u16At body 0, ipAddr := u32At body 2, ipMask := u32At body 6, ipGw := u32At body 10 }
  else d

/-- The descriptor and PARSE_OVERRUN of a block sequence, by recursion on its bytes (R173 to R178): four header bytes and at
least one more, the whole block with its pad inside, then the rest. -/
def describeBlocks : Nat → List Byte → Descriptor → Descriptor × Bool
  | fuel + 1, option :: suboption :: lenHi :: lenLo :: next :: rest, d =>
    let len : Nat := (lenHi ++ lenLo : Half).toNat
    let after := next :: rest
    if after.length < len + len % 2 then (d, true)
    else describeBlocks fuel (after.drop (len + len % 2)) (describeBlock option suboption (after.take len) d)
  | _, _, d => (d, false)

/-- The dispatch key of a block kind, nothing for a command (R98). -/
def blockKey : Instr → Option Half
  | .blkDevpropCustom _ => some 0x0201#16
  | .blkDevpropName _ => some 0x0202#16
  | .blkDevpropId _ => some 0x0203#16
  | .blkDevpropRole _ => some 0x0204#16
  | .blkAddressIp _ => some 0x0102#16
  | .blkOther option suboption _ => some (option ++ suboption)
  | .nop => none
  | .encIdentify => none
  | .encFlashled => none
  | .validate => none
  | .parse => none
  | .illegal _ _ => none

/-- The block passes the length check of its kind, so that it decides its fields (R181 to R185, R187). -/
def blockQualifies : Instr → Bool
  | .blkDevpropCustom len => decide (2 ≤ len.toNat ∧ len.toNat ≤ 63)
  | .blkDevpropName len => decide (2 ≤ len.toNat ∧ len.toNat ≤ 63)
  | .blkDevpropId len => decide (6 ≤ len.toNat)
  | .blkDevpropRole len => decide (3 ≤ len.toNat)
  | .blkAddressIp len => decide (14 ≤ len.toNat)
  | .blkOther _ _ _ => false
  | .nop => false
  | .encIdentify => false
  | .encFlashled => false
  | .validate => false
  | .parse => false
  | .illegal _ _ => false

end Sys2Proof.Machine
end

