-- ==== Sys2Proof/Certificates/Slice0/Obligations.lean ====
section
/-! DEFINITION. The statements for the provers. OBLIGATIONS.json lists them, with the rule of spec/ each formalises. -/

open Sys2Proof Sys2Proof.Machine

/-! ### Encodings -/

/-- Every well-formed instruction is what its own encoding decodes to, and a block header decodes the same whatever bytes
follow it in the payload. -/
def Obligations.DecodeEncodeRoundTrip : Prop :=
  ∀ i : Instr, i.wf = true →
    decode (encode i) = .ok i ∧
    ∀ header rest, encode i = .block header → decodeBlockHeader (header ++ rest) = .ok (i, rest)

/-- Every command word and every four header bytes have exactly one meaning: what they decode to is well-formed and encodes
back to them. -/
def Obligations.EncodeDecodeRoundTrip : Prop :=
  (∀ w : Word, (decodeCommand w).wf = true ∧ encode (decodeCommand w) = .command w) ∧
  (∀ o u h l : Byte, (decodeBlock o u (h ++ l)).wf = true ∧ encode (decodeBlock o u (h ++ l)) = .block [o, u, h, l])

/-- The opcode map: the five words of R72, and every other word is illegal. -/
def Obligations.CommandWordsFollowOpcodeMap : Prop :=
  decodeCommand 0x00000000#32 = .nop ∧ decodeCommand 0x00000001#32 = .encIdentify ∧
  decodeCommand 0x00000002#32 = .encFlashled ∧ decodeCommand 0x00000003#32 = .validate ∧
  decodeCommand 0x00000004#32 = .parse ∧
  ∀ w : Word, (w.extractLsb' 4 28 ≠ 0#28 ∨ 5 ≤ (w.extractLsb' 0 4).toNat) →
    decodeCommand w = .illegal (w.extractLsb' 4 28) (w.extractLsb' 0 4)

/-- The block dispatch map, and PARSE's dispatch runs exactly the instruction the map gives. -/
def Obligations.BlockDispatchFollowsKeyMap : Prop :=
  ∀ (o u : Byte) (len : Half) (s : State),
    (o ++ u = 0x0201#16 → decodeBlock o u len = .blkDevpropCustom len) ∧
    (o ++ u = 0x0202#16 → decodeBlock o u len = .blkDevpropName len) ∧
    (o ++ u = 0x0203#16 → decodeBlock o u len = .blkDevpropId len) ∧
    (o ++ u = 0x0204#16 → decodeBlock o u len = .blkDevpropRole len) ∧
    (o ++ u = 0x0102#16 → decodeBlock o u len = .blkAddressIp len) ∧
    ((o ++ u) ∉ [0x0201#16, 0x0202#16, 0x0203#16, 0x0204#16, 0x0102#16] → decodeBlock o u len = .blkOther o u len) ∧
    conclude s (dispatchBlock o u len s) = exec (decodeBlock o u len) s

/-- Command words and block headers written out from R72, R87 and R98 decode to what they stand for. -/
def Obligations.SampleEncodingsDecode : Prop :=
  decode (.command 0x00000003#32) = .ok .validate ∧
  decode (.command 0x80000003#32) = .ok (.illegal 0x8000000#28 3#4) ∧
  decode (.block [0x02#8, 0x02#8, 0x00#8, 0x08#8]) = .ok (.blkDevpropName 8#16) ∧
  decode (.block [0x01#8, 0x02#8, 0x00#8, 0x0E#8]) = .ok (.blkAddressIp 14#16) ∧
  decode (.block [0x05#8, 0x03#8, 0x00#8, 0x04#8]) = .ok (.blkOther 5#8 3#8 4#16)

/-! ### A step runs the decoded instruction -/

/-- A 32-bit host write of any word to CMD runs the command the word decodes to, in that step; around it the access is taken
from the pending ones, the draw number advances and the answer is the write's acceptance. With nothing pending the step
changes nothing. -/
def Obligations.StepRunsDecodedCommand : Prop :=
  (∀ (s : State) (w : Word) (rest : List HostEvent), s.pending = .w32 0x000#16 w :: rest →
    step s = exec (decodeCommand w) { s with pending := rest, response := .done, draws := s.draws + 1 }) ∧
  (∀ s : State, s.pending = [] → step s = .next s)

/-- One turn of PARSE's loop: with at most four bytes left it ends, a block that does not fit with its pad ends it with
PARSE_OVERRUN, and otherwise the instruction its header decodes to is run and the cursor goes past block and pad. -/
def Obligations.ParseLoopRunsDecodedBlock : Prop :=
  ∀ (s : State) (fuel : Nat),
    (s.remaining ≤ 4 → parseLoop fuel s = .ok { s with parseOverrun := false }) ∧
    ∀ (i : Instr) (need : Nat), 4 < s.remaining → s.blockStart + 4 ≤ s.rxLen.toNat →
      decodeBlockHeader (s.rxString s.blockStart 4) = .ok (i, []) →
      need = 4 + (s.rxU16 (s.blockStart + 2)).toNat + (s.rxU16 (s.blockStart + 2)).toNat % 2 →
      (s.remaining < need → parseLoop (fuel + 1) s = .ok { s with parseOverrun := true }) ∧
      (need ≤ s.remaining →
        (∀ t, exec i s = .next t → parseLoop (fuel + 1) s = parseLoop fuel { t with cursor := t.cursor + need }) ∧
        (∀ f, exec i s = .fault f → parseLoop (fuel + 1) s = .error (.fault f)))

/-! ### Control commands -/

/-- NOP: word 0, and nothing changes. -/
def Obligations.NopChangesNothing : Prop :=
  decodeCommand 0x00000000#32 = .nop ∧ ∀ s : State, exec .nop s = .next s

/-- The result codes have the numbers of R210, so no two coincide. -/
def Obligations.ResultCodesHaveTheirNumbers : Prop :=
  ResultCode.ok.code = 0x00#8 ∧ ResultCode.truncEth.code = 0x01#8 ∧ ResultCode.truncVlan.code = 0x02#8 ∧
  ResultCode.truncProfinet.code = 0x03#8 ∧ ResultCode.truncDcp.code = 0x04#8 ∧ ResultCode.addrMismatch.code = 0x05#8 ∧
  ResultCode.protoMismatch.code = 0x06#8 ∧ ResultCode.frameidMismatch.code = 0x07#8 ∧
  ResultCode.dlenExceeds.code = 0x08#8 ∧ ResultCode.noView.code = 0x10#8 ∧ ResultCode.illegalCmd.code = 0x11#8 ∧
  ∀ c d : ResultCode, c.code = d.code → c = d

/-- Every word outside the opcode map writes RESULT = 0x11 and nothing else, as does every ILLEGAL instruction. -/
def Obligations.IllegalCommandWritesResultOnly : Prop :=
  ResultCode.illegalCmd.code = 0x11#8 ∧
  (∀ (w : Word) (s : State), w ∉ [0#32, 1#32, 2#32, 3#32, 4#32] →
    exec (decodeCommand w) s = .next { s with result := .illegalCmd }) ∧
  (∀ (r : BitVec 28) (o : BitVec 4) (s : State), exec (.illegal r o) s = .next { s with result := .illegalCmd })

/-! ### Encoders -/

/-- Command word 1 is ENC_IDENTIFY, which writes the 30 bytes of R100 at TX[0..29], TX_LEN = 30 and RESULT = OK, and changes
nothing else. -/
def Obligations.EncIdentifyWritesFrame : Prop :=
  decodeCommand 0x00000001#32 = .encIdentify ∧
  ∀ s : State, ∃ t, exec .encIdentify s = .next t ∧
    (∀ i, t.tx.read i = if i < 30 then (identifyFrame s.srcMac Config.xidIdentify)[i]? else s.tx.read i) ∧
    t = { s with tx := t.tx, txLen := 30#16, result := .ok }

/-- Command word 2 is ENC_FLASHLED, which writes the 34 bytes of R101 at TX[0..33], TX_LEN = 34 and RESULT = OK, and changes
nothing else. -/
def Obligations.EncFlashledWritesFrame : Prop :=
  decodeCommand 0x00000002#32 = .encFlashled ∧
  ∀ s : State, ∃ t, exec .encFlashled s = .next t ∧
    (∀ i, t.tx.read i = if i < 34 then (flashledFrame s.dstMac s.srcMac Config.xidFlashled)[i]? else s.tx.read i) ∧
    t = { s with tx := t.tx, txLen := 34#16, result := .ok }

/-- An encoder command issued twice with unchanged operands leaves the state its first issue left. -/
def Obligations.EncodersAreIdempotent : Prop :=
  ∀ (s t : State) (i : Instr), s.tx.wf → (i = .encIdentify ∨ i = .encFlashled) → exec i s = .next t → exec i t = .next t

/-- After ENC_FLASHLED then ENC_IDENTIFY, TX[30..33] still hold the flash-LED request's last four bytes, and TX_LEN is 30. -/
def Obligations.IdentifyLeavesFlashledTail : Prop :=
  ∀ s : State, ∃ t u, exec .encFlashled s = .next t ∧ exec .encIdentify t = .next u ∧
    u.tx.read 30 = some 0x00#8 ∧ u.tx.read 31 = some 0x00#8 ∧ u.tx.read 32 = some 0x01#8 ∧ u.tx.read 33 = some 0x00#8 ∧
    u.txLen = 30#16

/-- Round-trip framing: the Identify request an encoder wrote, loaded as a received frame, passes VALIDATE with its own source
MAC as the expected one and frame-id 0xFEFE, and the view shows the request's fields. -/
def Obligations.IdentifyRequestValidates : Prop :=
  ∀ s t u : State, exec .encIdentify s = .next t → (∀ i, i < 30 → u.rx.read i = t.tx.read i) → u.rxLen = 30#16 →
    u.expMacEn = true → u.expMac = s.srcMac → u.expFrameId = 0xFEFE#16 →
    exec .validate u = .next
      { u with
        result := .ok, viewValid := true, vlanPresent := false,
        view := { svc := 0x0005#16, xid := Config.xidIdentify, delay := 128#16, dlen := 4#16, poff := 26#16,
                  frameId := 0xFEFE#16, srcMac := s.srcMac } }

/-! ### VALIDATE -/

/-- A frame that fails a check: RESULT is the first reason in the order of R214, the view registers, VIEW_VALID and
VLAN_PRESENT are 0, and nothing else changes. -/
def Obligations.RejectedValidateReportsFirstReason : Prop :=
  ∀ s : State, validateReason s ≠ .ok →
    exec .validate s = .next
      { s with result := validateReason s, view := View.zero, viewValid := false, vlanPresent := false }

/-- A frame that passes every check: the view registers take the frame's fields, VLAN_PRESENT tells the tag, VIEW_VALID is 1,
RESULT is OK, and nothing else changes. -/
def Obligations.AcceptedValidateSetsView : Prop :=
  ∀ s : State, validateReason s = .ok →
    exec .validate s = .next
      { s with result := .ok, view := s.frameView, viewValid := true, vlanPresent := s.tagged }

/-- The destination check: with EXP_MAC_EN = 1 only the expected MAC, the broadcast and the DCP Identify multicast pass; with
EXP_MAC_EN = 0 no destination is rejected. -/
def Obligations.DestinationCheck : Prop :=
  ∀ s : State, 14 ≤ s.rxLen.toNat → ∃ t, exec .validate s = .next t ∧
    (t.result = .addrMismatch ↔
      s.expMacEn = true ∧ s.rxMac 0 ≠ s.expMac.hi ++ s.expMac.lo ∧ s.rxMac 0 ≠ 0xFFFFFFFFFFFF#48 ∧
        s.rxMac 0 ≠ 0x010ECF000000#48)

/-- VLAN transparency: a frame and its tagged twin get the same result; when it is OK, the same view but for VIEW_POFF, 30
against 26, and VLAN_PRESENT, and the same payload bytes. -/
def Obligations.VlanTransparency : Prop :=
  ∀ s u : State, 14 ≤ s.rxLen.toNat → u.rxLen.toNat = s.rxLen.toNat + 4 →
    s.rxU16 12 = 0x8892#16 → u.rxU16 12 = 0x8100#16 → u.rxU16 16 = 0x8892#16 →
    (∀ i, i < 12 → u.rxAt i = s.rxAt i) → (∀ i, 14 ≤ i → i < s.rxLen.toNat → u.rxAt (i + 4) = s.rxAt i) →
    u.expMacEn = s.expMacEn → u.expMac = s.expMac → u.expFrameId = s.expFrameId →
    ∃ t v, exec .validate s = .next t ∧ exec .validate u = .next v ∧ v.result = t.result ∧
      (t.result = .ok →
        t.view.poff = 26#16 ∧ t.vlanPresent = false ∧ v.view = { t.view with poff := 30#16 } ∧ v.vlanPresent = true ∧
        v.payload = t.payload)

/-- Bytes of RXBUF after the declared payload change nothing VALIDATE does to an accepted frame, whatever they are and however
many of them RX_LEN counts. -/
def Obligations.TrailingBytesDoNotMatter : Prop :=
  ∀ (s : State) (rx : Memory) (n : Half), validateReason s = .ok →
    s.frameView.poff.toNat + s.frameView.dlen.toNat ≤ n.toNat →
    (∀ i, i < s.frameView.poff.toNat + s.frameView.dlen.toNat → ({ s with rx := rx } : State).rxAt i = s.rxAt i) →
    ∃ t, exec .validate s = .next t ∧ t.result = .ok ∧
      exec .validate { s with rx := rx, rxLen := n } = .next { t with rx := rx, rxLen := n }

/-- VALIDATE answers a next state for every content and every length, and what it does depends on no byte at or above RX_LEN. -/
def Obligations.ValidateReadsBelowRxLen : Prop :=
  ∀ s : State, ∃ t, exec .validate s = .next t ∧
    ∀ rx : Memory, (∀ i, i < s.rxLen.toNat → ({ s with rx := rx } : State).rxAt i = s.rxAt i) →
      exec .validate { s with rx := rx } = .next { t with rx := rx }

/-- A step sets VIEW_VALID only by running a VALIDATE that ends with RESULT = OK. -/
def Obligations.OnlyValidateMakesAView : Prop :=
  ∀ s t : State, step s = .next t → s.viewValid = false → t.viewValid = true →
    ∃ a rest, s.pending = .w32 a 0x00000003#32 :: rest ∧ a = 0x000#16 ∧ t.result = .ok

/-! ### PARSE -/

/-- PARSE without a view writes RESULT = NO_VIEW (0x10) and nothing else. -/
def Obligations.ParseWithoutViewIsNoView : Prop :=
  ResultCode.noView.code = 0x10#8 ∧
  ∀ s : State, s.viewValid = false → exec .parse s = .next { s with result := .noView }

/-- PARSE with a view: the descriptor and PARSE_OVERRUN are what a recursion over the payload bytes alone gives, RESULT is OK,
and nothing else changes (the cursor is 0 again). -/
def Obligations.ParseDescribesPayload : Prop :=
  ∀ s : State, s.viewValid = true → s.view.poff.toNat + s.view.dlen.toNat ≤ s.rxLen.toNat →
    exec .parse s = .next
      { s with
        desc := (describeBlocks s.view.dlen.toNat s.payload Descriptor.empty).1,
        parseOverrun := (describeBlocks s.view.dlen.toNat s.payload Descriptor.empty).2,
        result := .ok, cursor := 0 }

/-- PARSE answers a next state on every view that lies below RX_LEN, and what it does depends on no byte outside the payload of
the view. -/
def Obligations.ParseReadsInsidePayload : Prop :=
  ∀ s : State, s.viewValid = true → s.view.poff.toNat + s.view.dlen.toNat ≤ s.rxLen.toNat →
    ∃ t, exec .parse s = .next t ∧
      ∀ rx : Memory,
        (∀ i, s.view.poff.toNat ≤ i → i < s.view.poff.toNat + s.view.dlen.toNat →
          ({ s with rx := rx } : State).rxAt i = s.rxAt i) →
        exec .parse { s with rx := rx } = .next { t with rx := rx }

/-- PARSE issued again on the same view gives the same descriptor and changes nothing. -/
def Obligations.ParseTwiceGivesTheSame : Prop :=
  ∀ s t : State, s.viewValid = true → exec .parse s = .next t → exec .parse t = .next t

/-- The loop ends with at most four payload bytes left and PARSE_OVERRUN = 0, or at a block that does not fit and
PARSE_OVERRUN = 1, with the cursor inside the payload; more than 16384 turns are never made. -/
def Obligations.ParseLoopEnds : Prop :=
  (∀ s t : State, s.cursor ≤ s.view.dlen.toNat → parseLoop s.view.dlen.toNat s = .ok t →
    t.cursor ≤ t.view.dlen.toNat ∧
    (t.parseOverrun = false → t.view.dlen.toNat - t.cursor ≤ 4) ∧
    (t.parseOverrun = true → 4 < t.view.dlen.toNat - t.cursor ∧
      t.view.dlen.toNat - t.cursor <
        4 + (t.rxU16 (t.blockStart + 2)).toNat + (t.rxU16 (t.blockStart + 2)).toNat % 2)) ∧
  (∀ (s : State) (fuel : Nat), 16384 ≤ fuel → parseLoop fuel s = parseLoop 16384 s)

/-! ### Block kinds -/

/-- Custom, key 0x0201: L in 2..63 replaces the vendor value by the L - 2 bytes from b + 6, zero-filled; any other L changes
nothing. -/
def Obligations.CustomBlockSetsVendorValue : Prop :=
  ∀ (s : State) (len : Half),
    decodeBlock 2#8 1#8 len = .blkDevpropCustom len ∧
    (2 ≤ len.toNat → len.toNat ≤ 63 → s.blockStart + 4 + len.toNat ≤ s.rxLen.toNat →
      ∃ t, exec (.blkDevpropCustom len) s = .next t ∧
        t = { s with desc := { s.desc with vendor := t.desc.vendor } } ∧
        t.desc.vendor.len.toNat = len.toNat - 2 ∧
        ∀ k : Fin 63, t.desc.vendor.bytes[k] = if k.val < len.toNat - 2 then s.rxAt (s.blockStart + 6 + k.val) else 0#8) ∧
    ((len.toNat < 2 ∨ 63 < len.toNat) → exec (.blkDevpropCustom len) s = .next s)

/-- Name, key 0x0202: the same bounds rule, into the station name. -/
def Obligations.NameBlockSetsStationName : Prop :=
  ∀ (s : State) (len : Half),
    decodeBlock 2#8 2#8 len = .blkDevpropName len ∧
    (2 ≤ len.toNat → len.toNat ≤ 63 → s.blockStart + 4 + len.toNat ≤ s.rxLen.toNat →
      ∃ t, exec (.blkDevpropName len) s = .next t ∧
        t = { s with desc := { s.desc with name := t.desc.name } } ∧
        t.desc.name.len.toNat = len.toNat - 2 ∧
        ∀ k : Fin 63, t.desc.name.bytes[k] = if k.val < len.toNat - 2 then s.rxAt (s.blockStart + 6 + k.val) else 0#8) ∧
    ((len.toNat < 2 ∨ 63 < len.toNat) → exec (.blkDevpropName len) s = .next s)

/-- Id, key 0x0203: L ≥ 6 stores vendor id and device id; a shorter block changes nothing. -/
def Obligations.IdBlockSetsIds : Prop :=
  ∀ (s : State) (len : Half),
    decodeBlock 2#8 3#8 len = .blkDevpropId len ∧
    (6 ≤ len.toNat → s.blockStart + 4 + len.toNat ≤ s.rxLen.toNat →
      exec (.blkDevpropId len) s = .next
        { s with desc := { s.desc with
            vendorId := s.rxAt (s.blockStart + 6) ++ s.rxAt (s.blockStart + 7),
            deviceId := s.rxAt (s.blockStart + 8) ++ s.rxAt (s.blockStart + 9) } }) ∧
    (len.toNat < 6 → exec (.blkDevpropId len) s = .next s)

/-- Role, key 0x0204: L ≥ 3 stores the role byte; a shorter block changes nothing. -/
def Obligations.RoleBlockSetsRole : Prop :=
  ∀ (s : State) (len : Half),
    decodeBlock 2#8 4#8 len = .blkDevpropRole len ∧
    (3 ≤ len.toNat → s.blockStart + 4 + len.toNat ≤ s.rxLen.toNat →
      exec (.blkDevpropRole len) s = .next { s with desc := { s.desc with role := s.rxAt (s.blockStart + 6) } }) ∧
    (len.toNat < 3 → exec (.blkDevpropRole len) s = .next s)

/-- IP, key 0x0102: L ≥ 14 stores block-info, address, mask and gateway; a shorter block changes nothing. -/
def Obligations.IpBlockSetsIpParameters : Prop :=
  ∀ (s : State) (len : Half),
    decodeBlock 1#8 2#8 len = .blkAddressIp len ∧
    (14 ≤ len.toNat → s.blockStart + 4 + len.toNat ≤ s.rxLen.toNat →
      exec (.blkAddressIp len) s = .next
        { s with desc := { s.desc with
            ipStatus := s.rxAt (s.blockStart + 4) ++ s.rxAt (s.blockStart + 5),
            ipAddr := (s.rxAt (s.blockStart + 6) ++ s.rxAt (s.blockStart + 7)) ++
              (s.rxAt (s.blockStart + 8) ++ s.rxAt (s.blockStart + 9)),
            ipMask := (s.rxAt (s.blockStart + 10) ++ s.rxAt (s.blockStart + 11)) ++
              (s.rxAt (s.blockStart + 12) ++ s.rxAt (s.blockStart + 13)),
            ipGw := (s.rxAt (s.blockStart + 14) ++ s.rxAt (s.blockStart + 15)) ++
              (s.rxAt (s.blockStart + 16) ++ s.rxAt (s.blockStart + 17)) } }) ∧
    (len.toNat < 14 → exec (.blkAddressIp len) s = .next s)

/-- Any other (option, suboption): nothing is modified, whatever the block-length and the bytes. -/
def Obligations.OtherBlockIsSkipped : Prop :=
  ∀ (s : State) (o u : Byte) (len : Half),
    (o ++ u) ∉ [0x0201#16, 0x0202#16, 0x0203#16, 0x0204#16, 0x0102#16] →
    exec (decodeBlock o u len) s = .next s ∧ exec (.blkOther o u len) s = .next s

/-- Two blocks of different kinds commute: decoded in either order from their own places they give the same state. -/
def Obligations.DifferentBlockKindsCommute : Prop :=
  ∀ (s t u : State) (i j : Instr) (c d : Nat), (blockKey i).isSome → (blockKey j).isSome → blockKey i ≠ blockKey j →
    exec i { s with cursor := c } = .next t → exec j { s with cursor := d } = .next u →
    ∃ v w, exec j { t with cursor := d } = .next v ∧ exec i { u with cursor := c } = .next w ∧
      v = { w with cursor := d }

/-- Of two blocks of one kind the later one that passes its length check decides the kind's fields: the state is as if the
earlier one had not been there. -/
def Obligations.LaterBlockOfAKindWins : Prop :=
  ∀ (s t u : State) (i j : Instr) (c d : Nat), blockKey i = blockKey j → blockQualifies j = true →
    exec i { s with cursor := c } = .next t → exec j { s with cursor := d } = .next u →
    exec j { t with cursor := d } = .next u

/-- A Device-Properties block reads only its fields: its block-info, the bytes after its fields and its pad byte cannot change
what it does (a text reads b + 6 to the block's end, Id four bytes, Role one). -/
def Obligations.DevicePropertiesReadOnlyTheirFields : Prop :=
  ∀ (s t : State) (rx : Memory) (i : Instr) (last : Nat),
    ((∃ len, (i = .blkDevpropCustom len ∨ i = .blkDevpropName len) ∧ last = 4 + len.toNat) ∨
      (∃ len, i = .blkDevpropId len ∧ last = 10) ∨ (∃ len, i = .blkDevpropRole len ∧ last = 7)) →
    (∀ k, 6 ≤ k → k < last →
      ({ s with rx := rx } : State).rxAt (s.blockStart + k) = s.rxAt (s.blockStart + k)) →
    exec i s = .next t → exec i { s with rx := rx } = .next { t with rx := rx }

/-! ### The host port -/

/-- A host read changes nothing but the host port: whatever the address, the access is taken, the draw number advances and an
answer is given. -/
def Obligations.HostReadsHaveNoSideEffect : Prop :=
  ∀ (s : State) (a : Half) (rest : List HostEvent), (s.pending = .r8 a :: rest ∨ s.pending = .r32 a :: rest) →
    ∃ r, step s = .next { s with pending := rest, draws := s.draws + 1, response := r }

/-- STATUS reads RESULT in 7:0, VIEW_VALID in bit 8, VLAN_PRESENT in bit 9, PARSE_OVERRUN in bit 10 and 0 above. -/
def Obligations.StatusReadsItsFields : Prop :=
  ∀ (s : State) (rest : List HostEvent), s.pending = .r32 0x004#16 :: rest →
    ∃ t v, step s = .next t ∧ t.response = .data32 v ∧ v.extractLsb' 0 8 = s.result.code ∧
      v.getLsbD 8 = s.viewValid ∧ v.getLsbD 9 = s.vlanPresent ∧ v.getLsbD 10 = s.parseOverrun ∧ v.extractLsb' 11 21 = 0#21

/-- Every register reads its own fields at its address, zero-extended: CMD as 0, STATUS, the argument registers and RX_LEN (the
fields the commands read), TX_LEN, the view, RX_SRC_MAC, the descriptor and the parameters. -/
def Obligations.RegistersReadAtTheirAddresses : Prop :=
  ∀ (s : State) (a : Half) (v : Word) (rest : List HostEvent), s.pending = .r32 a :: rest →
    (a, v) ∈
      [(0x000#16, 0#32),
       (0x004#16, 0#21 ++ BitVec.ofBool s.parseOverrun ++ BitVec.ofBool s.vlanPresent ++ BitVec.ofBool s.viewValid ++
          s.result.code),
       (0x008#16, if s.expMacEn then 1#32 else 0#32), (0x00C#16, s.expFrameId.setWidth 32),
       (0x010#16, s.srcMac.hi.setWidth 32), (0x014#16, s.srcMac.lo), (0x018#16, s.dstMac.hi.setWidth 32),
       (0x01C#16, s.dstMac.lo), (0x020#16, s.expMac.hi.setWidth 32), (0x024#16, s.expMac.lo),
       (0x028#16, s.rxLen.setWidth 32), (0x02C#16, s.txLen.setWidth 32), (0x030#16, s.view.svc.setWidth 32),
       (0x034#16, s.view.xid), (0x038#16, s.view.delay.setWidth 32), (0x03C#16, s.view.dlen.setWidth 32),
       (0x040#16, s.view.poff.setWidth 32), (0x044#16, s.view.frameId.setWidth 32),
       (0x048#16, s.view.srcMac.hi.setWidth 32), (0x04C#16, s.view.srcMac.lo), (0x050#16, s.desc.vendorId.setWidth 32),
       (0x054#16, s.desc.deviceId.setWidth 32), (0x058#16, s.desc.role.setWidth 32), (0x05C#16, s.desc.ipAddr),
       (0x060#16, s.desc.ipMask), (0x064#16, s.desc.ipGw), (0x068#16, s.desc.ipStatus.setWidth 32),
       (0x06C#16, s.desc.name.len.setWidth 32), (0x070#16, s.desc.vendor.len.setWidth 32),
       (0x074#16, BitVec.ofNat 32 (Config.txbufSize * 65536 + Config.rxbufSize)),
       (0x078#16, Config.xidIdentify), (0x07C#16, Config.xidFlashled)] →
    ∃ t, step s = .next t ∧ t.response = .data32 v

/-- The argument registers: a host write stores the named bits and drops the reserved ones, a following read returns them,
and no other register, no buffer and no descriptor text changes. -/
def Obligations.ArgumentRegistersHoldWhatIsWritten : Prop :=
  ∀ (s : State) (a : Half) (r : Reg) (mask w : Word) (rest : List HostEvent),
    (a, r, mask) ∈
      [(0x008#16, .ctrl, 0x00000001#32), (0x00C#16, .expFrameId, 0x0000FFFF#32), (0x010#16, .srcMacHi, 0x0000FFFF#32),
       (0x014#16, .srcMacLo, 0xFFFFFFFF#32), (0x018#16, .dstMacHi, 0x0000FFFF#32), (0x01C#16, .dstMacLo, 0xFFFFFFFF#32),
       (0x020#16, .expMacHi, 0x0000FFFF#32), (0x024#16, .expMacLo, 0xFFFFFFFF#32)] →
    s.pending = .w32 a w :: .r32 a :: rest →
    ∃ t u, step s = .next t ∧ t.response = .done ∧ step t = .next u ∧ u.response = .data32 (w &&& mask) ∧
      (∀ q, q ≠ r → readReg u q = readReg s q) ∧ u.rx = s.rx ∧ u.tx = s.tx ∧ u.desc = s.desc ∧ u.pending = rest

/-- A host write of RX_LEN stores min(w, RXBUF_SIZE), whatever w, clears VIEW_VALID and changes nothing else. -/
def Obligations.RxLenWriteSaturatesAndDropsView : Prop :=
  ∀ (s : State) (w : Word) (rest : List HostEvent), s.pending = .w32 0x028#16 w :: rest →
    ∃ t, step s = .next t ∧ t.rxLen.toNat = min w.toNat Config.rxbufSize ∧
      t = { s with rxLen := t.rxLen, viewValid := false, pending := rest, draws := s.draws + 1, response := .done }

/-- A host write of RX[i] stores that byte and no other, clears VIEW_VALID and changes nothing else; the host reads the byte
back from the same address. -/
def Obligations.RxByteWriteStoresAndDropsView : Prop :=
  ∀ (s : State) (i : Nat) (v : Byte) (rest : List HostEvent), i < Config.rxbufSize →
    s.pending = .w8 (BitVec.ofNat 16 (0x4000 + i)) v :: .r8 (BitVec.ofNat 16 (0x4000 + i)) :: rest →
    ∃ t u, step s = .next t ∧ t.rx.read i = some v ∧ (∀ j, j ≠ i → t.rx.read j = s.rx.read j) ∧
      t = { s with rx := t.rx, viewValid := false, pending := t.pending, draws := s.draws + 1, response := .done } ∧
      step t = .next u ∧ u.response = .data8 v

/-- A host write of a read-only register, of a descriptor text window or of the TXBUF window is accepted and changes nothing. -/
def Obligations.ReadOnlyWritesAreIgnored : Prop :=
  (∀ (s : State) (r : Reg) (w : Word) (rest : List HostEvent),
    r ∉ [.cmd, .ctrl, .expFrameId, .srcMacHi, .srcMacLo, .dstMacHi, .dstMacLo, .expMacHi, .expMacLo, .rxLen] →
    s.pending = .w32 r.addr w :: rest →
    step s = .next { s with pending := rest, draws := s.draws + 1, response := .done }) ∧
  (∀ (s : State) (a : Half) (v : Byte) (rest : List HostEvent),
    ((0x0100 ≤ a.toNat ∧ a.toNat ≤ 0x013E) ∨ (0x0140 ≤ a.toNat ∧ a.toNat ≤ 0x017E) ∨
      (0x8000 ≤ a.toNat ∧ a.toNat < 0x8000 + Config.txbufSize)) →
    s.pending = .w8 a v :: rest →
    step s = .next { s with pending := rest, draws := s.draws + 1, response := .done })

/-- The byte windows read, in any state: a descriptor text byte; a byte of RXBUF or TXBUF as it was last written; and for a
byte of either buffer that nothing has written since reset the free byte of the draw the access makes (for every draw number;
log entry 3). -/
def Obligations.ByteWindowsRead : Prop :=
  ∀ (s : State) (rest : List HostEvent),
    (∀ k : Fin 63, s.pending = .r8 (BitVec.ofNat 16 (0x0100 + k.val)) :: rest →
      ∃ t, step s = .next t ∧ t.response = .data8 s.desc.name.bytes[k]) ∧
    (∀ k : Fin 63, s.pending = .r8 (BitVec.ofNat 16 (0x0140 + k.val)) :: rest →
      ∃ t, step s = .next t ∧ t.response = .data8 s.desc.vendor.bytes[k]) ∧
    (∀ i, i < Config.rxbufSize → s.pending = .r8 (BitVec.ofNat 16 (0x4000 + i)) :: rest →
      ∃ t, step s = .next t ∧
        (∀ v, s.rx.read i = some v → t.response = .data8 v) ∧
        (s.rx.read i = none → t.response = .data8 (Config.rxFreeByte (s.draws + 1) i))) ∧
    (∀ i, i < Config.txbufSize → s.pending = .r8 (BitVec.ofNat 16 (0x8000 + i)) :: rest →
      ∃ t, step s = .next t ∧
        (∀ v, s.tx.read i = some v → t.response = .data8 v) ∧
        (s.tx.read i = none → t.response = .data8 (Config.txFreeByte (s.draws + 1) i)))

/-- A refused access (a 32-bit one that is misaligned or outside the registers, an 8-bit one outside the byte windows) answers
BUS_ERROR and changes no register and no buffer; every other host access answers something else. -/
def Obligations.RefusedAccessesAnswerBusError : Prop :=
  ∀ (s : State) (ev : HostEvent) (rest : List HostEvent) (a : Half), s.pending = ev :: rest →
    (((∃ w, ev = .w32 a w) ∨ ev = .r32 a) →
      ((a.toNat % 4 ≠ 0 ∨ 0x80 ≤ a.toNat) →
        step s = .next { s with pending := rest, draws := s.draws + 1, response := .busError }) ∧
      (a.toNat % 4 = 0 → a.toNat < 0x80 → ∀ t, step s = .next t → t.response ≠ .busError)) ∧
    (((∃ v, ev = .w8 a v) ∨ ev = .r8 a) →
      (¬((0x0100 ≤ a.toNat ∧ a.toNat ≤ 0x013E) ∨ (0x0140 ≤ a.toNat ∧ a.toNat ≤ 0x017E) ∨
          (0x4000 ≤ a.toNat ∧ a.toNat < 0x4000 + Config.rxbufSize) ∨
          (0x8000 ≤ a.toNat ∧ a.toNat < 0x8000 + Config.txbufSize)) →
        step s = .next { s with pending := rest, draws := s.draws + 1, response := .busError }) ∧
      (((0x0100 ≤ a.toNat ∧ a.toNat ≤ 0x013E) ∨ (0x0140 ≤ a.toNat ∧ a.toNat ≤ 0x017E) ∨
          (0x4000 ≤ a.toNat ∧ a.toNat < 0x4000 + Config.rxbufSize) ∨
          (0x8000 ≤ a.toNat ∧ a.toNat < 0x8000 + Config.txbufSize)) →
        ∀ t, step s = .next t → t.response ≠ .busError))

/-! ### Reset -/

/-- After reset every register reads 0 but the three that read the parameters, the texts are empty, a PARSE gives NO_VIEW and a
VALIDATE gives TRUNC_ETH. -/
def Obligations.ResetStateReadsAsStated : Prop :=
  (∀ r : Reg, r ∉ [.cfg, .xidIdCfg, .xidFlCfg] → readReg State.reset r = 0#32) ∧
  State.reset.desc = Descriptor.empty ∧ State.reset.rx = [] ∧ State.reset.tx = [] ∧
  (∃ t, exec .parse State.reset = .next t ∧ t.result = .noView) ∧
  (∃ t, exec .validate State.reset = .next t ∧ t.result = .truncEth)

/-- The reset input puts every register and both buffers in the state of State.reset, whatever the state before; the pending
host accesses and the draw number are the model's own and stay. -/
def Obligations.ResetInputRestoresResetState : Prop :=
  ∀ (s : State) (rest : List HostEvent), s.pending = .reset :: rest →
    step s = .next { State.reset with pending := rest, draws := s.draws + 1 }

/-! ### The machine as a whole -/

/-- Which command writes which state: the table of R48, row by row; what a row does not name is unchanged, RX included. -/
def Obligations.CommandsWriteOnlyTheirState : Prop :=
  ∀ s t : State,
    (exec .nop s = .next t → t = s) ∧
    (exec .encIdentify s = .next t →
      t = { s with tx := t.tx, txLen := t.txLen, result := t.result } ∧ ∀ i, 30 ≤ i → t.tx.read i = s.tx.read i) ∧
    (exec .encFlashled s = .next t →
      t = { s with tx := t.tx, txLen := t.txLen, result := t.result } ∧ ∀ i, 34 ≤ i → t.tx.read i = s.tx.read i) ∧
    (exec .validate s = .next t →
      t = { s with view := t.view, viewValid := t.viewValid, vlanPresent := t.vlanPresent, result := t.result }) ∧
    (exec .parse s = .next t → s.viewValid = true →
      t = { s with desc := t.desc, parseOverrun := t.parseOverrun, result := t.result, cursor := 0 }) ∧
    (exec .parse s = .next t → s.viewValid = false → t = { s with result := t.result }) ∧
    (∀ r o, exec (.illegal r o) s = .next t → t = { s with result := t.result })

/-- The invariant holds right after reset. -/
def Obligations.ResetKeepsInvariant : Prop := Inv State.reset

/-- Every step keeps the invariant, from every state that has it. -/
def Obligations.StepKeepsInvariant : Prop := ∀ s t : State, Inv s → step s = .next t → Inv t

/-- No state with the invariant stops: every step answers a next state, so no read out of bounds is ever made and DCPC is always
ready for the next access. -/
def Obligations.NoReachableStateStops : Prop := ∀ s : State, Inv s → ∃ t, step s = .next t

/-- While VIEW_VALID is 1 the view describes the frame now in RXBUF: it holds at reset, and every step keeps it. -/
def Obligations.ViewAlwaysDescribesBuffer : Prop :=
  ViewDescribesBuffer State.reset ∧
  ∀ s t : State, ViewDescribesBuffer s → step s = .next t → ViewDescribesBuffer t
end

