-- ==== Sys2Proof/Laws/Bits.lean ====
section
/-! SUPPORT. Bit-field facts: a concatenation's parts, and a value as the concatenation of its parts. -/

namespace Sys2Proof

theorem extract_append_hi {n m : Nat} (x : BitVec n) (y : BitVec m) : (x ++ y).extractLsb' m n = x := by
  ext i hi
  simp [BitVec.getLsbD_append, BitVec.getLsbD_eq_getElem hi]

theorem extract_append_lo {n m : Nat} (x : BitVec n) (y : BitVec m) : (x ++ y).extractLsb' 0 m = y := by
  ext i hi
  simp [BitVec.getLsbD_append, hi]

theorem append_extract {n m : Nat} (v : BitVec (n + m)) : v.extractLsb' m n ++ v.extractLsb' 0 m = v := by
  ext i hi
  rw [BitVec.getElem_append]
  split
  · simp [BitVec.getLsbD_eq_getElem hi]
  · have : m + (i - m) = i := by omega
    simp [this, BitVec.getLsbD_eq_getElem hi]

/-- The two bytes of a u16 put together again. -/
theorem half_of_bytes (v : Half) : (v.extractLsb' 8 8 ++ v.extractLsb' 0 8 : Half) = v :=
  append_extract (n := 8) (m := 8) v

/-- Two pairs of bytes make the same u16 only if they are the same pair. -/
theorem append_inj {n m : Nat} {x x' : BitVec n} {y y' : BitVec m} : x ++ y = x' ++ y' ↔ x = x' ∧ y = y' := by
  constructor
  · intro h
    exact ⟨by rw [← extract_append_hi x y, h, extract_append_hi], by rw [← extract_append_lo x y, h, extract_append_lo]⟩
  · rintro ⟨rfl, rfl⟩
    rfl

end Sys2Proof
end

