-- ==== Sys2Proof/Laws/Memory.lean ====
section
/-! SUPPORT. What the byte store can do, once: reads after writes, the canonical form and the capacity, and that a store in
canonical form is its reads. -/

namespace Sys2Proof.Machine

@[simp] theorem Memory.read_nil (i : Nat) : Memory.read [] i = none := rfl

theorem Memory.read_write (m : Memory) (i j : Nat) (v : Byte) :
    (m.write i v).read j = if j = i then some v else m.read j := by
  induction m with
  | nil => simp [Memory.write, Memory.read]
  | cons p rest ih =>
    obtain ⟨a, b⟩ := p
    simp only [Memory.write]
    split_ifs with h1 h2 h3 h4 <;> simp_all [Memory.read]

theorem Memory.mem_write {m : Memory} {i : Nat} {v : Byte} {p : Host.Cell} (h : p ∈ m.write i v) :
    p = (i, v) ∨ p ∈ m := by
  induction m with
  | nil => simpa [Memory.write] using h
  | cons q rest ih =>
    obtain ⟨a, b⟩ := q
    simp only [Memory.write] at h
    split_ifs at h
    · simpa using h
    · rcases List.mem_cons.mp h with h | h
      · exact .inl h
      · exact .inr (List.mem_cons_of_mem _ h)
    · rcases List.mem_cons.mp h with h | h
      · exact .inr (h ▸ List.mem_cons_self)
      · exact (ih h).imp id (List.mem_cons_of_mem _)

theorem Memory.write_wf {m : Memory} (h : m.wf) (i : Nat) (v : Byte) : (m.write i v).wf := by
  induction m with
  | nil => simp [Memory.write, Memory.wf]
  | cons p rest ih =>
    obtain ⟨a, b⟩ := p
    simp only [Memory.wf, List.map_cons, List.pairwise_cons] at h ⊢ ih
    simp only [Memory.write]
    split_ifs with h1 h2
    · simp only [List.map_cons, List.pairwise_cons]
      refine ⟨fun x hx => ?_, h.1, h.2⟩
      rcases List.mem_cons.mp hx with rfl | hx
      · exact h1
      · exact h1.trans (h.1 x hx)
    · subst h2
      simpa using h
    · simp only [List.map_cons, List.pairwise_cons]
      refine ⟨fun x hx => ?_, ih h.2⟩
      obtain ⟨p, hp, rfl⟩ := List.mem_map.mp hx
      rcases Memory.mem_write hp with rfl | hp
      · simp only; omega
      · exact h.1 _ (List.mem_map_of_mem hp)

theorem Memory.write_within {m : Memory} {cap i : Nat} (h : m.within cap) (hi : i < cap) (v : Byte) :
    (m.write i v).within cap := by
  intro p hp
  rcases Memory.mem_write hp with rfl | hp
  · exact hi
  · exact h p hp

theorem Memory.read_writeBytes (m : Memory) (a : Nat) (bs : List Byte) (j : Nat) :
    (m.writeBytes a bs).read j = if a ≤ j ∧ j < a + bs.length then bs[j - a]? else m.read j := by
  induction bs generalizing m a with
  | nil =>
    simp only [Memory.writeBytes, List.length_nil, Nat.add_zero]
    split_ifs with h
    · omega
    · rfl
  | cons b bs ih =>
    simp only [Memory.writeBytes, ih, Memory.read_write, List.length_cons]
    by_cases hj : j = a
    · subst hj; simp
    · by_cases h : a + 1 ≤ j ∧ j < a + 1 + bs.length
      · rw [if_pos h, if_pos (by omega), show j - a = (j - (a + 1)) + 1 by omega, List.getElem?_cons_succ]
      · rw [if_neg h, if_neg hj, if_neg (by omega)]

theorem Memory.writeBytes_wf {m : Memory} (h : m.wf) (a : Nat) (bs : List Byte) : (m.writeBytes a bs).wf := by
  induction bs generalizing m a with
  | nil => exact h
  | cons b bs ih => exact ih (Memory.write_wf h a b) _

theorem Memory.writeBytes_within {m : Memory} {cap : Nat} (h : m.within cap) (a : Nat) (bs : List Byte)
    (hb : a + bs.length ≤ cap) : (m.writeBytes a bs).within cap := by
  induction bs generalizing m a with
  | nil => exact h
  | cons b bs ih =>
    simp only [List.length_cons] at hb
    exact ih (Memory.write_within h (by omega) b) _ (by omega)

@[simp] theorem bytesBE_length {w : Nat} (n : Nat) (v : BitVec w) : (bytesBE n v).length = n := by simp [bytesBE]

theorem Memory.read_memWrite (m : Memory) (a n : Nat) {w : Nat} (v : BitVec w) (j : Nat) :
    (memWrite m a n v).read j = if a ≤ j ∧ j < a + n then (bytesBE n v)[j - a]? else m.read j := by
  simp [memWrite, Memory.read_writeBytes]

theorem Memory.memWrite_wf {m : Memory} (h : m.wf) (a n : Nat) {w : Nat} (v : BitVec w) : (memWrite m a n v).wf :=
  Memory.writeBytes_wf h _ _

theorem Memory.memWrite_within {m : Memory} {cap : Nat} (h : m.within cap) (a n : Nat) {w : Nat} (v : BitVec w)
    (hb : a + n ≤ cap) : (memWrite m a n v).within cap :=
  Memory.writeBytes_within h _ _ (by simpa using hb)

theorem Memory.read_eq_none_of_lt {m : Memory} {i : Nat} (h : ∀ p ∈ m, i < p.1) : m.read i = none := by
  induction m with
  | nil => rfl
  | cons p rest ih =>
    have := h p List.mem_cons_self
    rw [Memory.read, if_neg (by omega), ih fun q hq => h q (List.mem_cons_of_mem _ hq)]

/-- A store in canonical form is determined by its reads, so equal contents are equal data. -/
theorem Memory.ext_read {m m' : Memory} (h : m.wf) (h' : m'.wf) (e : ∀ i, m.read i = m'.read i) : m = m' := by
  induction m generalizing m' with
  | nil =>
    cases m' with
    | nil => rfl
    | cons p rest => simpa [Memory.read] using e p.1
  | cons p rest ih =>
    obtain ⟨a, b⟩ := p
    cases m' with
    | nil => simpa [Memory.read] using e a
    | cons q rest' =>
      obtain ⟨c, d⟩ := q
      simp only [Memory.wf, List.map_cons, List.pairwise_cons, List.mem_map, forall_exists_index, and_imp,
        forall_apply_eq_imp_iff₂] at h h'
      have lo : Memory.read rest a = none := Memory.read_eq_none_of_lt fun p hp => h.1 p hp
      have lo' : Memory.read rest' c = none := Memory.read_eq_none_of_lt fun p hp => h'.1 p hp
      have hac : a = c := by
        rcases Nat.lt_trichotomy a c with hlt | heq | hgt
        · have := e a
          rw [Memory.read, if_pos rfl, Memory.read, if_neg (by omega),
            Memory.read_eq_none_of_lt fun p hp => hlt.trans (h'.1 p hp)] at this
          simp at this
        · exact heq
        · have := e c
          rw [Memory.read, if_neg (by omega), Memory.read, if_pos rfl,
            Memory.read_eq_none_of_lt fun p hp => Nat.lt_trans hgt (h.1 p hp)] at this
          simp at this
      subst hac
      have hbd : b = d := by simpa [Memory.read] using e a
      subst hbd
      rw [ih h.2 h'.2 fun i => ?_]
      by_cases hi : i = a
      · rw [hi, lo, lo']
      · simpa [Memory.read, hi] using e i

/-- After reset both buffers are in canonical form. -/
theorem reset_rx_wf : State.reset.rx.wf := List.Pairwise.nil
theorem reset_tx_wf : State.reset.tx.wf := List.Pairwise.nil

theorem rxbufSize_ge : 14 ≤ Config.rxbufSize := by unfold Config.rxbufSize; omega
theorem rxbufSize_le : Config.rxbufSize ≤ 16384 := by
  have := Config.rxbufExtra.isLt; unfold Config.rxbufSize; omega
theorem txbufSize_ge : 34 ≤ Config.txbufSize := by unfold Config.txbufSize; omega
theorem txbufSize_le : Config.txbufSize ≤ 16384 := by
  have := Config.txbufExtra.isLt; unfold Config.txbufSize; omega

end Sys2Proof.Machine
end

