-- ==== Sys2Proof/Laws/State.lean ====
section
/-! SUPPORT. One lemma per field for each named update of State, so that no proof unfolds one. -/

namespace Sys2Proof.Machine

/-! ### setResult -/

@[simp] theorem State.setResult_result (s : State) (code : ResultCode) : (s.setResult code).result = code := rfl
@[simp] theorem State.setResult_viewValid (s : State) (code : ResultCode) : (s.setResult code).viewValid = s.viewValid := rfl
@[simp] theorem State.setResult_vlanPresent (s : State) (code : ResultCode) : (s.setResult code).vlanPresent = s.vlanPresent := rfl
@[simp] theorem State.setResult_parseOverrun (s : State) (code : ResultCode) : (s.setResult code).parseOverrun = s.parseOverrun := rfl
@[simp] theorem State.setResult_expMacEn (s : State) (code : ResultCode) : (s.setResult code).expMacEn = s.expMacEn := rfl
@[simp] theorem State.setResult_expFrameId (s : State) (code : ResultCode) : (s.setResult code).expFrameId = s.expFrameId := rfl
@[simp] theorem State.setResult_srcMac (s : State) (code : ResultCode) : (s.setResult code).srcMac = s.srcMac := rfl
@[simp] theorem State.setResult_dstMac (s : State) (code : ResultCode) : (s.setResult code).dstMac = s.dstMac := rfl
@[simp] theorem State.setResult_expMac (s : State) (code : ResultCode) : (s.setResult code).expMac = s.expMac := rfl
@[simp] theorem State.setResult_rxLen (s : State) (code : ResultCode) : (s.setResult code).rxLen = s.rxLen := rfl
@[simp] theorem State.setResult_txLen (s : State) (code : ResultCode) : (s.setResult code).txLen = s.txLen := rfl
@[simp] theorem State.setResult_view (s : State) (code : ResultCode) : (s.setResult code).view = s.view := rfl
@[simp] theorem State.setResult_desc (s : State) (code : ResultCode) : (s.setResult code).desc = s.desc := rfl
@[simp] theorem State.setResult_rx (s : State) (code : ResultCode) : (s.setResult code).rx = s.rx := rfl
@[simp] theorem State.setResult_tx (s : State) (code : ResultCode) : (s.setResult code).tx = s.tx := rfl
@[simp] theorem State.setResult_cursor (s : State) (code : ResultCode) : (s.setResult code).cursor = s.cursor := rfl
@[simp] theorem State.setResult_pending (s : State) (code : ResultCode) : (s.setResult code).pending = s.pending := rfl
@[simp] theorem State.setResult_response (s : State) (code : ResultCode) : (s.setResult code).response = s.response := rfl
@[simp] theorem State.setResult_draws (s : State) (code : ResultCode) : (s.setResult code).draws = s.draws := rfl

/-! ### dropView -/

@[simp] theorem State.dropView_result (s : State) : s.dropView.result = s.result := rfl
@[simp] theorem State.dropView_viewValid (s : State) : s.dropView.viewValid = false := rfl
@[simp] theorem State.dropView_vlanPresent (s : State) : s.dropView.vlanPresent = s.vlanPresent := rfl
@[simp] theorem State.dropView_parseOverrun (s : State) : s.dropView.parseOverrun = s.parseOverrun := rfl
@[simp] theorem State.dropView_expMacEn (s : State) : s.dropView.expMacEn = s.expMacEn := rfl
@[simp] theorem State.dropView_expFrameId (s : State) : s.dropView.expFrameId = s.expFrameId := rfl
@[simp] theorem State.dropView_srcMac (s : State) : s.dropView.srcMac = s.srcMac := rfl
@[simp] theorem State.dropView_dstMac (s : State) : s.dropView.dstMac = s.dstMac := rfl
@[simp] theorem State.dropView_expMac (s : State) : s.dropView.expMac = s.expMac := rfl
@[simp] theorem State.dropView_rxLen (s : State) : s.dropView.rxLen = s.rxLen := rfl
@[simp] theorem State.dropView_txLen (s : State) : s.dropView.txLen = s.txLen := rfl
@[simp] theorem State.dropView_view (s : State) : s.dropView.view = s.view := rfl
@[simp] theorem State.dropView_desc (s : State) : s.dropView.desc = s.desc := rfl
@[simp] theorem State.dropView_rx (s : State) : s.dropView.rx = s.rx := rfl
@[simp] theorem State.dropView_tx (s : State) : s.dropView.tx = s.tx := rfl
@[simp] theorem State.dropView_cursor (s : State) : s.dropView.cursor = s.cursor := rfl
@[simp] theorem State.dropView_pending (s : State) : s.dropView.pending = s.pending := rfl
@[simp] theorem State.dropView_response (s : State) : s.dropView.response = s.response := rfl
@[simp] theorem State.dropView_draws (s : State) : s.dropView.draws = s.draws := rfl

/-! ### clearView -/

@[simp] theorem State.clearView_result (s : State) : s.clearView.result = s.result := rfl
@[simp] theorem State.clearView_viewValid (s : State) : s.clearView.viewValid = false := rfl
@[simp] theorem State.clearView_vlanPresent (s : State) : s.clearView.vlanPresent = false := rfl
@[simp] theorem State.clearView_parseOverrun (s : State) : s.clearView.parseOverrun = s.parseOverrun := rfl
@[simp] theorem State.clearView_expMacEn (s : State) : s.clearView.expMacEn = s.expMacEn := rfl
@[simp] theorem State.clearView_expFrameId (s : State) : s.clearView.expFrameId = s.expFrameId := rfl
@[simp] theorem State.clearView_srcMac (s : State) : s.clearView.srcMac = s.srcMac := rfl
@[simp] theorem State.clearView_dstMac (s : State) : s.clearView.dstMac = s.dstMac := rfl
@[simp] theorem State.clearView_expMac (s : State) : s.clearView.expMac = s.expMac := rfl
@[simp] theorem State.clearView_rxLen (s : State) : s.clearView.rxLen = s.rxLen := rfl
@[simp] theorem State.clearView_txLen (s : State) : s.clearView.txLen = s.txLen := rfl
@[simp] theorem State.clearView_view (s : State) : s.clearView.view = View.zero := rfl
@[simp] theorem State.clearView_desc (s : State) : s.clearView.desc = s.desc := rfl
@[simp] theorem State.clearView_rx (s : State) : s.clearView.rx = s.rx := rfl
@[simp] theorem State.clearView_tx (s : State) : s.clearView.tx = s.tx := rfl
@[simp] theorem State.clearView_cursor (s : State) : s.clearView.cursor = s.cursor := rfl
@[simp] theorem State.clearView_pending (s : State) : s.clearView.pending = s.pending := rfl
@[simp] theorem State.clearView_response (s : State) : s.clearView.response = s.response := rfl
@[simp] theorem State.clearView_draws (s : State) : s.clearView.draws = s.draws := rfl

/-! ### acceptView -/

@[simp] theorem State.acceptView_result (s : State) (view : View) (vlan : Bool) : (s.acceptView view vlan).result = .ok := rfl
@[simp] theorem State.acceptView_viewValid (s : State) (view : View) (vlan : Bool) : (s.acceptView view vlan).viewValid = true := rfl
@[simp] theorem State.acceptView_vlanPresent (s : State) (view : View) (vlan : Bool) : (s.acceptView view vlan).vlanPresent = vlan := rfl
@[simp] theorem State.acceptView_parseOverrun (s : State) (view : View) (vlan : Bool) : (s.acceptView view vlan).parseOverrun = s.parseOverrun := rfl
@[simp] theorem State.acceptView_expMacEn (s : State) (view : View) (vlan : Bool) : (s.acceptView view vlan).expMacEn = s.expMacEn := rfl
@[simp] theorem State.acceptView_expFrameId (s : State) (view : View) (vlan : Bool) : (s.acceptView view vlan).expFrameId = s.expFrameId := rfl
@[simp] theorem State.acceptView_srcMac (s : State) (view : View) (vlan : Bool) : (s.acceptView view vlan).srcMac = s.srcMac := rfl
@[simp] theorem State.acceptView_dstMac (s : State) (view : View) (vlan : Bool) : (s.acceptView view vlan).dstMac = s.dstMac := rfl
@[simp] theorem State.acceptView_expMac (s : State) (view : View) (vlan : Bool) : (s.acceptView view vlan).expMac = s.expMac := rfl
@[simp] theorem State.acceptView_rxLen (s : State) (view : View) (vlan : Bool) : (s.acceptView view vlan).rxLen = s.rxLen := rfl
@[simp] theorem State.acceptView_txLen (s : State) (view : View) (vlan : Bool) : (s.acceptView view vlan).txLen = s.txLen := rfl
@[simp] theorem State.acceptView_view (s : State) (view : View) (vlan : Bool) : (s.acceptView view vlan).view = view := rfl
@[simp] theorem State.acceptView_desc (s : State) (view : View) (vlan : Bool) : (s.acceptView view vlan).desc = s.desc := rfl
@[simp] theorem State.acceptView_rx (s : State) (view : View) (vlan : Bool) : (s.acceptView view vlan).rx = s.rx := rfl
@[simp] theorem State.acceptView_tx (s : State) (view : View) (vlan : Bool) : (s.acceptView view vlan).tx = s.tx := rfl
@[simp] theorem State.acceptView_cursor (s : State) (view : View) (vlan : Bool) : (s.acceptView view vlan).cursor = s.cursor := rfl
@[simp] theorem State.acceptView_pending (s : State) (view : View) (vlan : Bool) : (s.acceptView view vlan).pending = s.pending := rfl
@[simp] theorem State.acceptView_response (s : State) (view : View) (vlan : Bool) : (s.acceptView view vlan).response = s.response := rfl
@[simp] theorem State.acceptView_draws (s : State) (view : View) (vlan : Bool) : (s.acceptView view vlan).draws = s.draws := rfl

/-! ### setDesc -/

@[simp] theorem State.setDesc_result (s : State) (desc : Descriptor) : (s.setDesc desc).result = s.result := rfl
@[simp] theorem State.setDesc_viewValid (s : State) (desc : Descriptor) : (s.setDesc desc).viewValid = s.viewValid := rfl
@[simp] theorem State.setDesc_vlanPresent (s : State) (desc : Descriptor) : (s.setDesc desc).vlanPresent = s.vlanPresent := rfl
@[simp] theorem State.setDesc_parseOverrun (s : State) (desc : Descriptor) : (s.setDesc desc).parseOverrun = s.parseOverrun := rfl
@[simp] theorem State.setDesc_expMacEn (s : State) (desc : Descriptor) : (s.setDesc desc).expMacEn = s.expMacEn := rfl
@[simp] theorem State.setDesc_expFrameId (s : State) (desc : Descriptor) : (s.setDesc desc).expFrameId = s.expFrameId := rfl
@[simp] theorem State.setDesc_srcMac (s : State) (desc : Descriptor) : (s.setDesc desc).srcMac = s.srcMac := rfl
@[simp] theorem State.setDesc_dstMac (s : State) (desc : Descriptor) : (s.setDesc desc).dstMac = s.dstMac := rfl
@[simp] theorem State.setDesc_expMac (s : State) (desc : Descriptor) : (s.setDesc desc).expMac = s.expMac := rfl
@[simp] theorem State.setDesc_rxLen (s : State) (desc : Descriptor) : (s.setDesc desc).rxLen = s.rxLen := rfl
@[simp] theorem State.setDesc_txLen (s : State) (desc : Descriptor) : (s.setDesc desc).txLen = s.txLen := rfl
@[simp] theorem State.setDesc_view (s : State) (desc : Descriptor) : (s.setDesc desc).view = s.view := rfl
@[simp] theorem State.setDesc_desc (s : State) (desc : Descriptor) : (s.setDesc desc).desc = desc := rfl
@[simp] theorem State.setDesc_rx (s : State) (desc : Descriptor) : (s.setDesc desc).rx = s.rx := rfl
@[simp] theorem State.setDesc_tx (s : State) (desc : Descriptor) : (s.setDesc desc).tx = s.tx := rfl
@[simp] theorem State.setDesc_cursor (s : State) (desc : Descriptor) : (s.setDesc desc).cursor = s.cursor := rfl
@[simp] theorem State.setDesc_pending (s : State) (desc : Descriptor) : (s.setDesc desc).pending = s.pending := rfl
@[simp] theorem State.setDesc_response (s : State) (desc : Descriptor) : (s.setDesc desc).response = s.response := rfl
@[simp] theorem State.setDesc_draws (s : State) (desc : Descriptor) : (s.setDesc desc).draws = s.draws := rfl

/-! ### finishFrame -/

@[simp] theorem State.finishFrame_result (s : State) (tx : Memory) (length : Half) : (s.finishFrame tx length).result = .ok := rfl
@[simp] theorem State.finishFrame_viewValid (s : State) (tx : Memory) (length : Half) : (s.finishFrame tx length).viewValid = s.viewValid := rfl
@[simp] theorem State.finishFrame_vlanPresent (s : State) (tx : Memory) (length : Half) : (s.finishFrame tx length).vlanPresent = s.vlanPresent := rfl
@[simp] theorem State.finishFrame_parseOverrun (s : State) (tx : Memory) (length : Half) : (s.finishFrame tx length).parseOverrun = s.parseOverrun := rfl
@[simp] theorem State.finishFrame_expMacEn (s : State) (tx : Memory) (length : Half) : (s.finishFrame tx length).expMacEn = s.expMacEn := rfl
@[simp] theorem State.finishFrame_expFrameId (s : State) (tx : Memory) (length : Half) : (s.finishFrame tx length).expFrameId = s.expFrameId := rfl
@[simp] theorem State.finishFrame_srcMac (s : State) (tx : Memory) (length : Half) : (s.finishFrame tx length).srcMac = s.srcMac := rfl
@[simp] theorem State.finishFrame_dstMac (s : State) (tx : Memory) (length : Half) : (s.finishFrame tx length).dstMac = s.dstMac := rfl
@[simp] theorem State.finishFrame_expMac (s : State) (tx : Memory) (length : Half) : (s.finishFrame tx length).expMac = s.expMac := rfl
@[simp] theorem State.finishFrame_rxLen (s : State) (tx : Memory) (length : Half) : (s.finishFrame tx length).rxLen = s.rxLen := rfl
@[simp] theorem State.finishFrame_txLen (s : State) (tx : Memory) (length : Half) : (s.finishFrame tx length).txLen = length := rfl
@[simp] theorem State.finishFrame_view (s : State) (tx : Memory) (length : Half) : (s.finishFrame tx length).view = s.view := rfl
@[simp] theorem State.finishFrame_desc (s : State) (tx : Memory) (length : Half) : (s.finishFrame tx length).desc = s.desc := rfl
@[simp] theorem State.finishFrame_rx (s : State) (tx : Memory) (length : Half) : (s.finishFrame tx length).rx = s.rx := rfl
@[simp] theorem State.finishFrame_tx (s : State) (tx : Memory) (length : Half) : (s.finishFrame tx length).tx = tx := rfl
@[simp] theorem State.finishFrame_cursor (s : State) (tx : Memory) (length : Half) : (s.finishFrame tx length).cursor = s.cursor := rfl
@[simp] theorem State.finishFrame_pending (s : State) (tx : Memory) (length : Half) : (s.finishFrame tx length).pending = s.pending := rfl
@[simp] theorem State.finishFrame_response (s : State) (tx : Memory) (length : Half) : (s.finishFrame tx length).response = s.response := rfl
@[simp] theorem State.finishFrame_draws (s : State) (tx : Memory) (length : Half) : (s.finishFrame tx length).draws = s.draws := rfl

/-! ### advance -/

@[simp] theorem State.advance_result (s : State) (need : Nat) : (s.advance need).result = s.result := rfl
@[simp] theorem State.advance_viewValid (s : State) (need : Nat) : (s.advance need).viewValid = s.viewValid := rfl
@[simp] theorem State.advance_vlanPresent (s : State) (need : Nat) : (s.advance need).vlanPresent = s.vlanPresent := rfl
@[simp] theorem State.advance_parseOverrun (s : State) (need : Nat) : (s.advance need).parseOverrun = s.parseOverrun := rfl
@[simp] theorem State.advance_expMacEn (s : State) (need : Nat) : (s.advance need).expMacEn = s.expMacEn := rfl
@[simp] theorem State.advance_expFrameId (s : State) (need : Nat) : (s.advance need).expFrameId = s.expFrameId := rfl
@[simp] theorem State.advance_srcMac (s : State) (need : Nat) : (s.advance need).srcMac = s.srcMac := rfl
@[simp] theorem State.advance_dstMac (s : State) (need : Nat) : (s.advance need).dstMac = s.dstMac := rfl
@[simp] theorem State.advance_expMac (s : State) (need : Nat) : (s.advance need).expMac = s.expMac := rfl
@[simp] theorem State.advance_rxLen (s : State) (need : Nat) : (s.advance need).rxLen = s.rxLen := rfl
@[simp] theorem State.advance_txLen (s : State) (need : Nat) : (s.advance need).txLen = s.txLen := rfl
@[simp] theorem State.advance_view (s : State) (need : Nat) : (s.advance need).view = s.view := rfl
@[simp] theorem State.advance_desc (s : State) (need : Nat) : (s.advance need).desc = s.desc := rfl
@[simp] theorem State.advance_rx (s : State) (need : Nat) : (s.advance need).rx = s.rx := rfl
@[simp] theorem State.advance_tx (s : State) (need : Nat) : (s.advance need).tx = s.tx := rfl
@[simp] theorem State.advance_cursor (s : State) (need : Nat) : (s.advance need).cursor = s.cursor + need := rfl
@[simp] theorem State.advance_pending (s : State) (need : Nat) : (s.advance need).pending = s.pending := rfl
@[simp] theorem State.advance_response (s : State) (need : Nat) : (s.advance need).response = s.response := rfl
@[simp] theorem State.advance_draws (s : State) (need : Nat) : (s.advance need).draws = s.draws := rfl

/-! ### respond -/

@[simp] theorem State.respond_result (s : State) (r : Response) : (s.respond r).result = s.result := rfl
@[simp] theorem State.respond_viewValid (s : State) (r : Response) : (s.respond r).viewValid = s.viewValid := rfl
@[simp] theorem State.respond_vlanPresent (s : State) (r : Response) : (s.respond r).vlanPresent = s.vlanPresent := rfl
@[simp] theorem State.respond_parseOverrun (s : State) (r : Response) : (s.respond r).parseOverrun = s.parseOverrun := rfl
@[simp] theorem State.respond_expMacEn (s : State) (r : Response) : (s.respond r).expMacEn = s.expMacEn := rfl
@[simp] theorem State.respond_expFrameId (s : State) (r : Response) : (s.respond r).expFrameId = s.expFrameId := rfl
@[simp] theorem State.respond_srcMac (s : State) (r : Response) : (s.respond r).srcMac = s.srcMac := rfl
@[simp] theorem State.respond_dstMac (s : State) (r : Response) : (s.respond r).dstMac = s.dstMac := rfl
@[simp] theorem State.respond_expMac (s : State) (r : Response) : (s.respond r).expMac = s.expMac := rfl
@[simp] theorem State.respond_rxLen (s : State) (r : Response) : (s.respond r).rxLen = s.rxLen := rfl
@[simp] theorem State.respond_txLen (s : State) (r : Response) : (s.respond r).txLen = s.txLen := rfl
@[simp] theorem State.respond_view (s : State) (r : Response) : (s.respond r).view = s.view := rfl
@[simp] theorem State.respond_desc (s : State) (r : Response) : (s.respond r).desc = s.desc := rfl
@[simp] theorem State.respond_rx (s : State) (r : Response) : (s.respond r).rx = s.rx := rfl
@[simp] theorem State.respond_tx (s : State) (r : Response) : (s.respond r).tx = s.tx := rfl
@[simp] theorem State.respond_cursor (s : State) (r : Response) : (s.respond r).cursor = s.cursor := rfl
@[simp] theorem State.respond_pending (s : State) (r : Response) : (s.respond r).pending = s.pending := rfl
@[simp] theorem State.respond_response (s : State) (r : Response) : (s.respond r).response = r := rfl
@[simp] theorem State.respond_draws (s : State) (r : Response) : (s.respond r).draws = s.draws := rfl

/-! ### take -/

@[simp] theorem State.take_result (s : State) (rest : List HostEvent) : (s.take rest).result = s.result := rfl
@[simp] theorem State.take_viewValid (s : State) (rest : List HostEvent) : (s.take rest).viewValid = s.viewValid := rfl
@[simp] theorem State.take_vlanPresent (s : State) (rest : List HostEvent) : (s.take rest).vlanPresent = s.vlanPresent := rfl
@[simp] theorem State.take_parseOverrun (s : State) (rest : List HostEvent) : (s.take rest).parseOverrun = s.parseOverrun := rfl
@[simp] theorem State.take_expMacEn (s : State) (rest : List HostEvent) : (s.take rest).expMacEn = s.expMacEn := rfl
@[simp] theorem State.take_expFrameId (s : State) (rest : List HostEvent) : (s.take rest).expFrameId = s.expFrameId := rfl
@[simp] theorem State.take_srcMac (s : State) (rest : List HostEvent) : (s.take rest).srcMac = s.srcMac := rfl
@[simp] theorem State.take_dstMac (s : State) (rest : List HostEvent) : (s.take rest).dstMac = s.dstMac := rfl
@[simp] theorem State.take_expMac (s : State) (rest : List HostEvent) : (s.take rest).expMac = s.expMac := rfl
@[simp] theorem State.take_rxLen (s : State) (rest : List HostEvent) : (s.take rest).rxLen = s.rxLen := rfl
@[simp] theorem State.take_txLen (s : State) (rest : List HostEvent) : (s.take rest).txLen = s.txLen := rfl
@[simp] theorem State.take_view (s : State) (rest : List HostEvent) : (s.take rest).view = s.view := rfl
@[simp] theorem State.take_desc (s : State) (rest : List HostEvent) : (s.take rest).desc = s.desc := rfl
@[simp] theorem State.take_rx (s : State) (rest : List HostEvent) : (s.take rest).rx = s.rx := rfl
@[simp] theorem State.take_tx (s : State) (rest : List HostEvent) : (s.take rest).tx = s.tx := rfl
@[simp] theorem State.take_cursor (s : State) (rest : List HostEvent) : (s.take rest).cursor = s.cursor := rfl
@[simp] theorem State.take_pending (s : State) (rest : List HostEvent) : (s.take rest).pending = rest := rfl
@[simp] theorem State.take_response (s : State) (rest : List HostEvent) : (s.take rest).response = s.response := rfl
@[simp] theorem State.take_draws (s : State) (rest : List HostEvent) : (s.take rest).draws = s.draws + 1 := rfl

end Sys2Proof.Machine
end

