-- ==== Sys2Proof/Laws/Encoder.lean ====
section
/-! SUPPORT. The encoders' frames as stores: they keep the canonical form and stay inside TXBUF; big-endian values as bytes. -/

namespace Sys2Proof.Machine

theorem exec_encIdentify (s : State) : exec .encIdentify s = .next (s.finishFrame s.identifyRequest 30#16) := rfl
theorem exec_encFlashled (s : State) : exec .encFlashled s = .next (s.finishFrame s.flashledRequest 34#16) := rfl

theorem writeRequestHeaders_wf {m : Memory} (h : m.wf) (dst src : Mac) (frameId : Half) (serviceId : Byte) (xid : Word)
    (delay dlen : Half) : (writeRequestHeaders m dst src frameId serviceId xid delay dlen).wf := by
  unfold writeRequestHeaders
  dsimp only
  iterate 9 apply Memory.memWrite_wf
  exact h

theorem writeBlockHeader_wf {m : Memory} (h : m.wf) (a : Nat) (option suboption : Byte) (len : Half) :
    (writeBlockHeader m a option suboption len).wf := by
  unfold writeBlockHeader
  dsimp only
  iterate 3 apply Memory.memWrite_wf
  exact h

theorem identifyRequest_wf {s : State} (h : s.tx.wf) : s.identifyRequest.wf := by
  unfold State.identifyRequest
  exact writeBlockHeader_wf (writeRequestHeaders_wf h _ _ _ _ _ _ _) _ _ _ _

theorem flashledRequest_wf {s : State} (h : s.tx.wf) : s.flashledRequest.wf := by
  unfold State.flashledRequest
  exact Memory.memWrite_wf
    (Memory.memWrite_wf (writeBlockHeader_wf (writeRequestHeaders_wf h _ _ _ _ _ _ _) _ _ _ _) _ _ _) _ _ _

theorem writeRequestHeaders_within {m : Memory} {cap : Nat} (h : m.within cap) (hc : 26 ≤ cap) (dst src : Mac)
    (frameId : Half) (serviceId : Byte) (xid : Word) (delay dlen : Half) :
    (writeRequestHeaders m dst src frameId serviceId xid delay dlen).within cap := by
  unfold writeRequestHeaders
  dsimp only
  iterate 9 refine Memory.memWrite_within ?_ _ _ _ (by omega)
  exact h

theorem writeBlockHeader_within {m : Memory} {cap a : Nat} (h : m.within cap) (hc : a + 4 ≤ cap) (option suboption : Byte)
    (len : Half) : (writeBlockHeader m a option suboption len).within cap := by
  unfold writeBlockHeader
  dsimp only
  iterate 3 refine Memory.memWrite_within ?_ _ _ _ (by omega)
  exact h

theorem identifyRequest_within {s : State} (h : s.tx.within Config.txbufSize) :
    s.identifyRequest.within Config.txbufSize := by
  have := txbufSize_ge
  unfold State.identifyRequest
  exact writeBlockHeader_within (writeRequestHeaders_within h (by omega) _ _ _ _ _ _ _) (by omega) _ _ _

theorem flashledRequest_within {s : State} (h : s.tx.within Config.txbufSize) :
    s.flashledRequest.within Config.txbufSize := by
  have := txbufSize_ge
  unfold State.flashledRequest
  exact Memory.memWrite_within
    (Memory.memWrite_within
      (writeBlockHeader_within (writeRequestHeaders_within h (by omega) _ _ _ _ _ _ _) (by omega) _ _ _) _ _ _ (by omega))
    _ _ _ (by omega)

/-- A part of a concatenation that starts in its upper value. -/
theorem extract_of_append_hi {n m : Nat} (x : BitVec n) (y : BitVec m) (k l : Nat) :
    (x ++ y).extractLsb' (m + k) l = x.extractLsb' k l := by
  ext i hi
  simp only [BitVec.getElem_extractLsb', BitVec.getLsbD_append]
  rw [if_neg (by omega)]
  congr 1
  omega

/-- A part of a concatenation that lies in its lower value. -/
theorem extract_of_append_lo {n m : Nat} (x : BitVec n) (y : BitVec m) (k l : Nat) (h : k + l ≤ m) :
    (x ++ y).extractLsb' k l = y.extractLsb' k l := by
  ext i hi
  simp only [BitVec.getElem_extractLsb', BitVec.getLsbD_append]
  rw [if_pos (by omega)]

theorem bytesBE_mac (m : MacPair) : bytesBE 6 m.value = m.wire := by
  simp only [bytesBE, List.range, List.range.loop, List.map_cons, List.map_nil, MacPair.wire]
  rw [← extract_of_append_hi m.hi m.lo 8 8, ← extract_of_append_hi m.hi m.lo 0 8,
    ← extract_of_append_lo m.hi m.lo 24 8 (by omega), ← extract_of_append_lo m.hi m.lo 16 8 (by omega),
    ← extract_of_append_lo m.hi m.lo 8 8 (by omega), ← extract_of_append_lo m.hi m.lo 0 8 (by omega)]
  rfl

theorem bytesBE_word (v : Word) : bytesBE 4 v = wireU32 v := by simp [bytesBE, List.range, List.range.loop, wireU32]

theorem bytesBE_half (v : Half) : bytesBE 2 v = [v.extractLsb' 8 8, v.extractLsb' 0 8] := by
  simp [bytesBE, List.range, List.range.loop]

theorem bytesBE_byte (v : Byte) : bytesBE 1 v = [v] := by simp [bytesBE, List.range, List.range.loop]

end Sys2Proof.Machine
end

