-- ==== Sys2Proof/Laws/Operands.lean ====
section
/-! SUPPORT. What a field read of the engine answers: the field where it lies below RX_LEN, the fault otherwise; and the
outcomes of the engine's early end. -/

namespace Sys2Proof.Machine

theorem rxByte_ok {s : State} {i : Nat} (h : i < s.rxLen.toNat) : rxByte s i = .ok (s.rxAt i) := if_pos h

theorem rx16_ok {s : State} {a : Nat} (h : a + 2 ≤ s.rxLen.toNat) : rx16 s a = .ok (s.rxU16 a) := by
  simp only [rx16, rxByte_ok (show a < s.rxLen.toNat by omega), rxByte_ok (show a + 1 < s.rxLen.toNat by omega)]
  rfl

theorem rx32_ok {s : State} {a : Nat} (h : a + 4 ≤ s.rxLen.toNat) : rx32 s a = .ok (s.rxU32 a) := by
  simp only [rx32, rx16_ok (show a + 2 ≤ s.rxLen.toNat by omega), rx16_ok (show a + 2 + 2 ≤ s.rxLen.toNat by omega)]
  rfl

theorem rx48_ok {s : State} {a : Nat} (h : a + 6 ≤ s.rxLen.toNat) : rx48 s a = .ok (s.rxMac a) := by
  simp only [rx48, rx16_ok (show a + 2 ≤ s.rxLen.toNat by omega), rx32_ok (show a + 2 + 4 ≤ s.rxLen.toNat by omega)]
  rfl

@[simp] theorem State.rxString_length (s : State) (a n : Nat) : (s.rxString a n).length = n := by simp [State.rxString]

theorem State.rxString_succ (s : State) (a n : Nat) : s.rxString a (n + 1) = s.rxAt a :: s.rxString (a + 1) n := by
  simp only [State.rxString, List.range_succ_eq_map, List.map_cons, List.map_map, Nat.add_zero]
  congr 1
  exact List.map_congr_left fun k _ => by simp only [Function.comp_apply]; congr 1; omega

theorem rxBytes_ok {s : State} {a n : Nat} (h : a + n ≤ s.rxLen.toNat) : rxBytes s a n = .ok (s.rxString a n) := by
  induction n generalizing a with
  | zero => rfl
  | succ n ih =>
    rw [rxBytes, rxByte_ok (show a < s.rxLen.toNat by omega), ih (show a + 1 + n ≤ s.rxLen.toNat by omega),
      State.rxString_succ]
    rfl

/-- A gate answers only that its condition holds. -/
theorem require_eq_ok {c : Prop} [Decidable c] {code : ResultCode} : require c code = .ok () ↔ c := by
  unfold require; split_ifs with h <;> simp [h]

theorem require_pos {c : Prop} [Decidable c] {code : ResultCode} (h : c) : require c code = .ok () := if_pos h
theorem require_neg {c : Prop} [Decidable c] {code : ResultCode} (h : ¬c) : require c code = .error (.reject code) :=
  if_neg h

/-- What `conclude` can answer. -/
theorem conclude_next {s t : State} {e : Engine State} (h : conclude s e = .next t) :
    e = .ok t ∨ ∃ code, e = .error (.reject code) ∧ t = s.setResult code := by
  rcases e with (code | f) | u
  · exact .inr ⟨code, rfl, by simpa [conclude, raiseReject] using h.symm⟩
  · simp [conclude] at h
  · exact .inl (by simpa [conclude] using h)

@[simp] theorem conclude_ok (s t : State) : conclude s (.ok t) = .next t := rfl
@[simp] theorem conclude_reject (s : State) (code : ResultCode) :
    conclude s (.error (.reject code)) = .next (s.setResult code) := rfl
@[simp] theorem conclude_fault (s : State) (f : Fault) : conclude s (.error (.fault f)) = .fault f := rfl

/-- No meaning is refused through `conclude`. -/
theorem conclude_ne_refused (s : State) (e : Engine State) (r : Refusal) : conclude s e ≠ .refused r := by
  rcases e with (code | f) | u <;> simp [conclude, raiseReject]


/-- A text made of at most 63 bytes has that many. -/
theorem TextField.ofBytes_len {text : List Byte} (h : text.length ≤ 63) :
    (TextField.ofBytes text).len.toNat = text.length := by
  simp only [TextField.ofBytes, BitVec.toNat_ofNat]
  omega

/-- The bytes of a text: those it was made of, then 0. -/
theorem TextField.ofBytes_byte (text : List Byte) (k : Fin 63) :
    (TextField.ofBytes text).bytes[k] = text.getD k.val 0#8 := by
  simp [TextField.ofBytes]

/-- A string of at most 61 bytes makes a well-formed text. -/
theorem TextField.ofBytes_wf {text : List Byte} (h : text.length ≤ 61) : (TextField.ofBytes text).wf := by
  refine ⟨by rw [TextField.ofBytes_len (by omega)]; exact h, fun k hk => ?_⟩
  rw [TextField.ofBytes_len (by omega)] at hk
  rw [TextField.ofBytes_byte, List.getD_eq_default _ _ hk]

theorem TextField.empty_wf : TextField.empty.wf := ⟨by decide, fun i _ => by simp [TextField.empty]⟩

end Sys2Proof.Machine
end

