-- ==== Sys2Proof/Laws/Parser.lean ====
section
/-! SUPPORT. The parser's shared operations: byte strings of the receive buffer, the block header, what a dispatched block may
change, and what the loop may change. -/

namespace Sys2Proof.Machine

theorem engine_error {α β : Type} (e : Stop) (f : α → Engine β) : ((Except.error e : Engine α) >>= f) = .error e := rfl
theorem engine_ok {α β : Type} (a : α) (f : α → Engine β) : ((Except.ok a : Engine α) >>= f) = f a := rfl

/-- Work in sequence answers only where both parts do. -/
theorem engine_bind_ok {α β : Type} {x : Engine α} {f : α → Engine β} {b : β} (h : (x >>= f) = .ok b) :
    ∃ a, x = .ok a ∧ f a = .ok b := by
  cases x with
  | error e => cases h
  | ok a => exact ⟨a, rfl, h⟩

theorem rxString_getD (s : State) {a n k : Nat} (h : k < n) : (s.rxString a n).getD k 0#8 = s.rxAt (a + k) := by
  simp [State.rxString, List.getD, h]

theorem rxString_drop (s : State) (a n k : Nat) : (s.rxString a n).drop k = s.rxString (a + k) (n - k) := by
  apply List.ext_getElem
  · simp
  · intro i h1 h2
    simp [State.rxString, Nat.add_assoc]

theorem rxString_take (s : State) {a n k : Nat} (h : k ≤ n) : (s.rxString a n).take k = s.rxString a k := by
  apply List.ext_getElem
  · simpa using h
  · intro i h1 h2
    simp [State.rxString]

theorem readBlockHeader_ok {s : State} (h : s.blockStart + 4 ≤ s.rxLen.toNat) :
    readBlockHeader s = .ok (s.rxAt s.blockStart, s.rxAt (s.blockStart + 1), s.rxU16 (s.blockStart + 2)) := by
  unfold readBlockHeader
  rw [rxByte_ok (by omega), engine_ok, rxByte_ok (by omega), engine_ok, rx16_ok (by omega), engine_ok]
  rfl

theorem textOfBlock_ok {s : State} {len : Half} (h : 2 ≤ len.toNat ∧ len.toNat ≤ 63)
    (hb : s.blockStart + 4 + len.toNat ≤ s.rxLen.toNat) :
    textOfBlock s len = .ok (some (TextField.ofBytes (s.rxString (s.blockStart + 6) (len.toNat - 2)))) := by
  unfold textOfBlock
  rw [if_pos h, rxBytes_ok (by omega), engine_ok]
  rfl

theorem textOfBlock_skip {s : State} {len : Half} (h : ¬(2 ≤ len.toNat ∧ len.toNat ≤ 63)) :
    textOfBlock s len = .ok none := if_neg h

theorem blockCustom_frame {len : Half} {s t : State} (h : blockCustom len s = .ok t) : t = s.setDesc t.desc := by
  obtain ⟨a, -, h⟩ := engine_bind_ok h
  cases a <;> · cases h; rfl

theorem blockName_frame {len : Half} {s t : State} (h : blockName len s = .ok t) : t = s.setDesc t.desc := by
  obtain ⟨a, -, h⟩ := engine_bind_ok h
  cases a <;> · cases h; rfl

theorem blockId_frame {len : Half} {s t : State} (h : blockId len s = .ok t) : t = s.setDesc t.desc := by
  unfold blockId at h
  split_ifs at h
  · obtain ⟨_, -, h⟩ := engine_bind_ok h
    obtain ⟨_, -, h⟩ := engine_bind_ok h
    cases h
    rfl
  · cases h
    rfl

theorem blockRole_frame {len : Half} {s t : State} (h : blockRole len s = .ok t) : t = s.setDesc t.desc := by
  unfold blockRole at h
  split_ifs at h
  · obtain ⟨_, -, h⟩ := engine_bind_ok h
    cases h
    rfl
  · cases h
    rfl

theorem blockIp_frame {len : Half} {s t : State} (h : blockIp len s = .ok t) : t = s.setDesc t.desc := by
  unfold blockIp at h
  split_ifs at h
  · obtain ⟨_, -, h⟩ := engine_bind_ok h
    obtain ⟨_, -, h⟩ := engine_bind_ok h
    obtain ⟨_, -, h⟩ := engine_bind_ok h
    obtain ⟨_, -, h⟩ := engine_bind_ok h
    cases h
    rfl
  · cases h
    rfl

/-- A dispatched block changes the descriptor only. -/
theorem dispatchBlock_frame {o u : Byte} {len : Half} {s t : State} (h : dispatchBlock o u len s = .ok t) :
    t = s.setDesc t.desc := by
  unfold dispatchBlock at h
  split at h
  · exact blockCustom_frame h
  · exact blockName_frame h
  · exact blockId_frame h
  · exact blockRole_frame h
  · exact blockIp_frame h
  · cases h
    rfl

/-- The loop changes the descriptor, PARSE_OVERRUN and the cursor only. -/
theorem parseLoop_frame {fuel : Nat} {s t : State} (h : parseLoop fuel s = .ok t) :
    t = { s with desc := t.desc, parseOverrun := t.parseOverrun, cursor := t.cursor } := by
  induction fuel generalizing s with
  | zero => cases h; rfl
  | succ fuel ih =>
    unfold parseLoop at h
    split_ifs at h
    · cases h
      rfl
    · obtain ⟨⟨o, u, len⟩, -, h⟩ := engine_bind_ok h
      dsimp only at h
      split_ifs at h
      · cases h
        rfl
      · obtain ⟨v, hv, h⟩ := engine_bind_ok h
        have hv := dispatchBlock_frame hv
        have := ih h
        rw [hv] at this
        exact this

end Sys2Proof.Machine
end

