-- ==== Sys2Proof/Laws/PerInstr.lean ====
section
/-! SUPPORT. Families of lemmas, one per instruction. EncodeForm: a command is written as one command word, a block kind as
the four header bytes that hold its dispatch key (spec/30_encoding.md R71, R87, R98). -/

namespace Sys2Proof.Laws.EncodeForm

open Sys2Proof.Machine

/-- What the encoding of an instruction consists of. -/
def Statement (i : Instr) : Prop :=
  match blockKey i with
  | none => ∃ w, encode i = .command w
  | some key => ∃ len, encode i = .block (blockHeaderBytes key len)

theorem nop : Statement .nop := ⟨_, rfl⟩
theorem encIdentify : Statement .encIdentify := ⟨_, rfl⟩
theorem encFlashled : Statement .encFlashled := ⟨_, rfl⟩
theorem validate : Statement .validate := ⟨_, rfl⟩
theorem parse : Statement .parse := ⟨_, rfl⟩
theorem illegal (reserved : BitVec 28) (opcode : BitVec 4) : Statement (.illegal reserved opcode) := ⟨_, rfl⟩
theorem blkDevpropCustom (len : Half) : Statement (.blkDevpropCustom len) := ⟨_, rfl⟩
theorem blkDevpropName (len : Half) : Statement (.blkDevpropName len) := ⟨_, rfl⟩
theorem blkDevpropId (len : Half) : Statement (.blkDevpropId len) := ⟨_, rfl⟩
theorem blkDevpropRole (len : Half) : Statement (.blkDevpropRole len) := ⟨_, rfl⟩
theorem blkAddressIp (len : Half) : Statement (.blkAddressIp len) := ⟨_, rfl⟩
theorem blkOther (option : Byte) (suboption : Byte) (len : Half) : Statement (.blkOther option suboption len) := ⟨_, rfl⟩

end Sys2Proof.Laws.EncodeForm
end

