-- ==== Sys2Proof/Laws/Step.lean ====
section
/-! SUPPORT. What one step does, by the kind of the next host event, and the address map's answers. -/

namespace Sys2Proof.Machine

/-- A CMD write runs the decoded command on the state the access was taken from. -/
theorem step_command {s : State} {ev : HostEvent} {rest : List HostEvent} {w : Word} (h : s.pending = ev :: rest)
    (hc : commandOf ev = some w) : step s = exec (decodeCommand w) ((s.take rest).respond .done) := by
  simp only [step, h, hc]

/-- Every other event is performed by the host port. -/
theorem step_hostEvent {s : State} {ev : HostEvent} {rest : List HostEvent} (h : s.pending = ev :: rest)
    (hc : commandOf ev = none) : step s = .next (hostEvent (s.take rest) ev) := by
  simp only [step, h, hc]

/-- What a step can be: idle, a command, or a host event. -/
theorem step_cases {s t : State} (h : step s = .next t) :
    (s.pending = [] ∧ t = s) ∨
    (∃ a w rest, s.pending = .w32 a w :: rest ∧ regAt a = some .cmd ∧
      exec (decodeCommand w) ((s.take rest).respond .done) = .next t) ∨
    (∃ ev rest, s.pending = ev :: rest ∧ commandOf ev = none ∧ t = hostEvent (s.take rest) ev) := by
  cases hp : s.pending with
  | nil => exact .inl ⟨rfl, by simpa [step, hp] using h.symm⟩
  | cons ev rest =>
    cases hc : commandOf ev with
    | none =>
      rw [step_hostEvent hp hc] at h
      exact .inr (.inr ⟨ev, rest, rfl, hc, by simpa using h.symm⟩)
    | some w =>
      rw [step_command hp hc] at h
      cases ev with
      | w32 a w' =>
        simp only [commandOf] at hc
        split_ifs at hc with ha
        · exact .inr (.inl ⟨a, w, rest, by simp_all, ha, h⟩)
      | r8 a => simp [commandOf] at hc
      | w8 a v => simp [commandOf] at hc
      | r32 a => simp [commandOf] at hc
      | reset => simp [commandOf] at hc

/-- Every register is found at its own address. -/
theorem regAt_addr (r : Reg) : regAt r.addr = some r := by cases r <;> decide

/-- A register found at an address is the one that has it. -/
theorem addr_of_regAt {a : Half} {r : Reg} (h : regAt a = some r) : r.addr = a := by
  simpa using List.find?_some h

theorem regAt_cmd {a : Half} (h : regAt a = some .cmd) : a = 0x000#16 := (addr_of_regAt h).symm

theorem windowAt_rx {i : Nat} (h : i < Config.rxbufSize) : windowAt (BitVec.ofNat 16 (0x4000 + i)) = some (.rx i) := by
  have := rxbufSize_le
  have e : (BitVec.ofNat 16 (0x4000 + i)).toNat = 0x4000 + i := by rw [BitVec.toNat_ofNat]; omega
  simp only [windowAt, e]
  rw [dif_neg (by omega), dif_neg (by omega), if_pos (by omega)]
  simp

theorem windowAt_tx {i : Nat} (h : i < Config.txbufSize) : windowAt (BitVec.ofNat 16 (0x8000 + i)) = some (.tx i) := by
  have := txbufSize_le
  have := rxbufSize_le
  have e : (BitVec.ofNat 16 (0x8000 + i)).toNat = 0x8000 + i := by rw [BitVec.toNat_ofNat]; omega
  simp only [windowAt, e]
  rw [dif_neg (by omega), dif_neg (by omega), if_neg (by omega), if_pos (by omega)]
  simp

theorem windowAt_name (k : Fin 63) : windowAt (BitVec.ofNat 16 (0x0100 + k.val)) = some (.name k) := by
  have e : (BitVec.ofNat 16 (0x0100 + k.val)).toNat = 0x0100 + k.val := by rw [BitVec.toNat_ofNat]; omega
  simp only [windowAt, e]
  rw [dif_pos (by omega)]
  simp

theorem windowAt_vendor (k : Fin 63) : windowAt (BitVec.ofNat 16 (0x0140 + k.val)) = some (.vendor k) := by
  have e : (BitVec.ofNat 16 (0x0140 + k.val)).toNat = 0x0140 + k.val := by rw [BitVec.toNat_ofNat]; omega
  simp only [windowAt, e]
  rw [dif_neg (by omega), dif_pos (by omega)]
  simp

/-- An RXBUF window address lies inside the buffer. -/
theorem windowAt_eq_rx {a : Half} {i : Nat} (h : windowAt a = some (.rx i)) : i < Config.rxbufSize := by
  simp only [windowAt] at h
  split_ifs at h <;> simp at h
  omega

end Sys2Proof.Machine
end

