-- ==== Sys2Proof/Laws/Validator.lean ====
section
/-! SUPPORT. What each step of VALIDATE answers: a step goes on exactly where its check holds, and with the fields at their
frame offsets. -/

namespace Sys2Proof.Machine

theorem exec_validate (s : State) : exec .validate s = conclude s.clearView (validateFrame s.clearView) := rfl

theorem checkEthernet_eq (s : State) :
    checkEthernet s = if 14 ≤ s.rxLen.toNat then .ok () else .error (.reject .truncEth) := rfl

theorem destinationOk_iff (s : State) :
    s.destinationOk = true ↔ (s.expMacEn = true → acceptedDestination s (s.rxMac 0)) := by
  cases h : s.expMacEn <;> simp [State.destinationOk, acceptedDestination, broadcastMac, dcpMulticast, h, or_assoc]

theorem checkDestination_eq {s : State} (h : 14 ≤ s.rxLen.toNat) :
    checkDestination s = if s.destinationOk = true then .ok () else .error (.reject .addrMismatch) := by
  have hd := destinationOk_iff s
  unfold checkDestination
  by_cases he : s.expMacEn = true
  · rw [if_pos he, rx48_ok (by omega), engine_ok, require]
    simp only [he, forall_const] at hd
    simp only [hd]
  · rw [if_neg he, if_pos (hd.mpr fun h => absurd h he)]

theorem readDcpHeader_ok {s : State} {p : Nat} (h : p + 10 ≤ s.rxLen.toNat) :
    readDcpHeader s p = .ok
      { serviceId := s.rxAt p, serviceType := s.rxAt (p + 1), xid := s.rxU32 (p + 2), delay := s.rxU16 (p + 6),
        dlen := s.rxU16 (p + 8) } := by
  rw [readDcpHeader, require_pos (by omega), engine_ok, rxByte_ok (by omega), engine_ok, rxByte_ok (by omega), engine_ok,
    rx32_ok (by omega), engine_ok, rx16_ok (by omega), engine_ok, rx16_ok (by omega), engine_ok]
  rfl

theorem readDcpHeader_short {s : State} {p : Nat} (h : s.rxLen.toNat < p + 10) :
    readDcpHeader s p = .error (.reject .truncDcp) := by
  rw [readDcpHeader, require_neg (by omega)]
  rfl

theorem checkFrameId_short {s : State} {p : Nat} (h : s.rxLen.toNat < p + 2) :
    checkFrameId s p = .error (.reject .truncProfinet) := by
  rw [checkFrameId, require_neg (by omega)]
  rfl

theorem checkFrameId_eq {s : State} {p : Nat} (h : p + 2 ≤ s.rxLen.toNat) :
    checkFrameId s p =
      if s.expFrameId = 0#16 ∨ s.rxU16 p = s.expFrameId then .ok (s.rxU16 p) else .error (.reject .frameidMismatch) := by
  rw [checkFrameId, require_pos (by omega), engine_ok, rx16_ok h, engine_ok, require]
  split_ifs <;> rfl

theorem ofMac_rxMac (s : State) (a : Nat) : MacPair.ofMac (s.rxMac a) = { hi := s.rxU16 a, lo := s.rxU32 (a + 2) } := by
  unfold MacPair.ofMac State.rxMac
  congr 1
  · exact extract_append_hi (s.rxU16 a) (s.rxU32 (a + 2))
  · exact extract_append_lo (s.rxU16 a) (s.rxU32 (a + 2))

/-- A frame that passes gives a view; nothing but the view, its flags and RESULT is written. -/
theorem validateFrame_frame {s t : State} (h : validateFrame s = .ok t) :
    ∃ view vlan, t = s.acceptView view vlan := by
  unfold validateFrame at h
  obtain ⟨_, -, h⟩ := engine_bind_ok h
  obtain ⟨_, -, h⟩ := engine_bind_ok h
  obtain ⟨⟨p, vlan⟩, -, h⟩ := engine_bind_ok h
  obtain ⟨fid, -, h⟩ := engine_bind_ok h
  obtain ⟨hdr, -, h⟩ := engine_bind_ok h
  obtain ⟨_, -, h⟩ := engine_bind_ok h
  obtain ⟨src, -, h⟩ := engine_bind_ok h
  exact ⟨_, _, (Except.ok.inj h).symm⟩

end Sys2Proof.Machine
end

