-- ==== Sys2Proof/Machine/HostProgram.lean ====
section
/-! DEFINITION. The host-program pseudo-instructions of spec/30_encoding.md R76 as the host accesses they expand to. The
accesses themselves (WR32, RD32, WR8, RD8 of R75) are the constructors of HostEvent. EXPECT is a RD32 whose result the
program asserts, so its access is RD32's. -/

namespace Sys2Proof.Machine

/-- `WR32 <reg>, <imm32>` (R75). -/
def wr32 (r : Reg) (w : Word) : HostEvent := .w32 r.addr w

/-- `RD32 <reg>` (R75). -/
def rd32 (r : Reg) : HostEvent := .r32 r.addr

/-- `CMD <mnemonic>` (R76): the write of the command's word; a block kind is no command. -/
def cmdProgram (i : Instr) : List HostEvent :=
  match encode i with
  | .command w => [wr32 .cmd w]
  | .block _ => []

/-- Which MAC register pair SETMAC names. -/
inductive MacName where
  | src | dst | exp
deriving DecidableEq, Repr

/-- The *_HI register of a pair. -/
def MacName.hiReg : MacName → Reg
  | .src => .srcMacHi
  | .dst => .dstMacHi
  | .exp => .expMacHi

/-- The *_LO register of a pair. -/
def MacName.loReg : MacName → Reg
  | .src => .srcMacLo
  | .dst => .dstMacLo
  | .exp => .expMacLo

/-- `SETMAC <SRC|DST|EXP>, m0:m1:m2:m3:m4:m5` (R76). -/
def setmacProgram (name : MacName) (m : Mac) : List HostEvent :=
  [wr32 name.hiReg ((MacPair.ofMac m).hi.setWidth 32), wr32 name.loReg (MacPair.ofMac m).lo]

/-- The byte writes of LOADRX from index `i` on. -/
def loadBytesFrom : Nat → List Byte → List HostEvent
  | _, [] => []
  | i, b :: bs => .w8 (BitVec.ofNat 16 (0x4000 + i)) b :: loadBytesFrom (i + 1) bs

/-- `LOADRX b0 b1 ... b(n-1)` (R76): the bytes in order, then RX_LEN. -/
def loadrxProgram (frame : List Byte) : List HostEvent :=
  loadBytesFrom 0 frame ++ [wr32 .rxLen (BitVec.ofNat 32 frame.length)]

end Sys2Proof.Machine
end

