-- ==== Sys2Proof/Tests/Slice0.lean ====
section
/-! SUPPORT. Tests on fixed values, and for every statement with hypotheses a concrete state that meets them. Expected values
are those of spec/95_test_vectors.md (the vector is named) or written out by hand from the rule named. -/

namespace Sys2Proof.Machine.Tests

/-! ### Helpers -/

/-- The next state, if there is one. -/
def ran : Host.Outcome State Fault Refusal → Option State
  | .next t => some t
  | .fault _ => none
  | .refused _ => none

theorem next_of_ran {α : Type} {o : Host.Outcome State Fault Refusal} {f : State → α} {a : α} (h : (ran o).map f = some a) :
    ∃ t, o = .next t ∧ f t = a := by
  cases o with
  | next t => exact ⟨t, rfl, by simpa [ran] using h⟩
  | fault f => simp [ran] at h
  | refused r => simp [ran] at h

theorem ok_of_toOption {α : Type} {e : Engine State} {f : State → α} {a : α} (h : e.toOption.map f = some a) :
    ∃ t, e = .ok t ∧ f t = a := by
  cases e with
  | ok t => exact ⟨t, rfl, by simpa [Except.toOption] using h⟩
  | error e => simp [Except.toOption] at h

/-- Reset, then a frame in RXBUF with RX_LEN its length. -/
def framed (bytes : List Byte) : State :=
  { State.reset with rx := Memory.writeBytes [] 0 bytes, rxLen := BitVec.ofNat 16 bytes.length }

/-- An untagged view whose payload is these bytes. -/
def viewed (payload : List Byte) : State :=
  { State.reset with
    rx := Memory.writeBytes [] 26 payload, rxLen := BitVec.ofNat 16 (26 + payload.length), viewValid := true,
    view := { View.zero with poff := 26#16, dlen := BitVec.ofNat 16 payload.length } }

/-- The same state with these host events to come. -/
def upcoming (s : State) (events : List HostEvent) : State := { s with pending := events }

/-- F_ID of spec/95_test_vectors.md. -/
def frameId : List Byte :=
  [0x01#8, 0x0E#8, 0xCF#8, 0x00#8, 0x00#8, 0x00#8, 0x00#8, 0x11#8, 0x22#8, 0x33#8, 0x44#8, 0x55#8, 0x88#8, 0x92#8,
   0xFE#8, 0xFE#8, 0x05#8, 0x00#8, 0x00#8, 0x00#8, 0x00#8, 0x01#8, 0x00#8, 0x80#8, 0x00#8, 0x04#8, 0xFF#8, 0xFF#8, 0x00#8,
   0x00#8]

/-- F_IDT of spec/95_test_vectors.md: the same request under an 802.1Q tag. -/
def frameIdTagged : List Byte := frameId.take 12 ++ [0x81#8, 0x00#8, 0x00#8, 0x05#8] ++ frameId.drop 12

/-- The block sequence of V-PAR-01. -/
def blocksPar01 : List Byte :=
  [0x02#8, 0x02#8, 0x00#8, 0x08#8, 0x00#8, 0x00#8, 0x70#8, 0x6C#8, 0x63#8, 0x2D#8, 0x30#8, 0x31#8] ++
  [0x02#8, 0x03#8, 0x00#8, 0x06#8, 0x00#8, 0x00#8, 0x00#8, 0x2A#8, 0x01#8, 0x01#8] ++
  [0x01#8, 0x02#8, 0x00#8, 0x0E#8, 0x00#8, 0x00#8, 0x0A#8, 0x00#8, 0x00#8, 0x05#8, 0xFF#8, 0xFF#8, 0xFF#8, 0x00#8, 0x0A#8,
   0x00#8, 0x00#8, 0x01#8]

/-! ### WellFormed: each check refuses an ill-formed term -/

theorem test_wf_refuses_known_opcode : (Instr.illegal 0#28 3#4).wf = false := by decide
theorem test_wf_refuses_opcode_four : (Instr.illegal 0#28 4#4).wf = false := by decide
theorem test_wf_refuses_known_key : (Instr.blkOther 2#8 1#8 6#16).wf = false := by decide
theorem test_wf_refuses_ip_key : (Instr.blkOther 1#8 2#8 14#16).wf = false := by decide
theorem test_wf_accepts_unknown_key : (Instr.blkOther 1#8 1#8 14#16).wf = true := by decide

/-! ### Decoding: one word or header written out from R72, R87 and R98 for every constructor -/

theorem test_decode_nop : decodeCommand 0b00000000000000000000000000000000#32 = .nop := by decide
theorem test_decode_encIdentify : decodeCommand 0b00000000000000000000000000000001#32 = .encIdentify := by decide
theorem test_decode_encFlashled : decodeCommand 0b00000000000000000000000000000010#32 = .encFlashled := by decide
theorem test_decode_validate : decodeCommand 0b00000000000000000000000000000011#32 = .validate := by decide
theorem test_decode_parse : decodeCommand 0b00000000000000000000000000000100#32 = .parse := by decide
theorem test_decode_illegal_opcode :
    decodeCommand 0b00000000000000000000000000000101#32 = .illegal 0#28 5#4 := by decide
theorem test_decode_illegal_reserved :
    decodeCommand 0b10000000000000000000000000000011#32 = .illegal 0x8000000#28 3#4 := by decide
theorem test_decode_custom :
    decodeBlockHeader [0x02#8, 0x01#8, 0x00#8, 0x3F#8, 0xAA#8] = .ok (.blkDevpropCustom 63#16, [0xAA#8]) := by decide
theorem test_decode_name : decodeBlockHeader [0x02#8, 0x02#8, 0x00#8, 0x08#8] = .ok (.blkDevpropName 8#16, []) := by decide
theorem test_decode_id : decodeBlockHeader [0x02#8, 0x03#8, 0x00#8, 0x06#8] = .ok (.blkDevpropId 6#16, []) := by decide
theorem test_decode_role : decodeBlockHeader [0x02#8, 0x04#8, 0x00#8, 0x04#8] = .ok (.blkDevpropRole 4#16, []) := by decide
theorem test_decode_ip : decodeBlockHeader [0x01#8, 0x02#8, 0x00#8, 0x0E#8] = .ok (.blkAddressIp 14#16, []) := by decide
theorem test_decode_other :
    decodeBlockHeader [0x05#8, 0x03#8, 0x01#8, 0x04#8] = .ok (.blkOther 5#8 3#8 260#16, []) := by decide
theorem test_decode_short_header :
    decodeBlockHeader [0x02#8, 0x02#8, 0x00#8] = .error .blockHeaderTruncated := by decide
theorem test_table_word_block : decodeTableWord 16 0x0102 = some (.blkAddressIp 0#16) := by decide
theorem test_table_word_unknown_width : decodeTableWord 8 0 = none := by decide

/-! ### One step or one instruction on a small state -/

/-- V-CTL-02. -/
theorem test_nop_keeps_status :
    (ran (exec .nop { State.reset with result := .addrMismatch })).map State.statusWord = some 0x00000005#32 := by decide

/-- V-CTL-05. -/
theorem test_illegal_keeps_view :
    (ran (exec (decodeCommand 0x80000003#32) (viewed []))).map State.statusWord = some 0x00000111#32 := by decide

/-- V-ENC-01, but for the xid bytes 18..21. -/
theorem test_encIdentify_bytes :
    (ran (exec .encIdentify { State.reset with srcMac := { hi := 0x0011#16, lo := 0x22334455#32 } })).map
        (fun t => ((List.range 18 ++ [22, 23, 24, 25, 26, 27, 28, 29]).map t.tx.read, t.tx.read 30, t.txLen)) =
      some ((frameId.take 18 ++ frameId.drop 22).map some, none, 30#16) := by decide

/-- V-ENC-07. -/
theorem test_encIdentify_clears_reason :
    (ran (exec .encIdentify { State.reset with result := .addrMismatch })).map State.statusWord = some 0#32 := by decide

/-- V-ENC-03, the bytes that are not F_ID's and not the xid. -/
theorem test_encFlashled_bytes :
    (ran (exec .encFlashled { State.reset with dstMac := { hi := 0x000A#16, lo := 0x0B0C0D0E#32 } })).map
        (fun t => ([0, 1, 2, 3, 4, 5, 14, 15, 16, 17, 22, 23, 24, 25, 26, 27, 28, 29, 30, 31, 32, 33].map t.tx.read, t.txLen)) =
      some ([0x00#8, 0x0A#8, 0x0B#8, 0x0C#8, 0x0D#8, 0x0E#8, 0xFE#8, 0xFD#8, 0x04#8, 0x00#8, 0x00#8, 0x00#8, 0x00#8, 0x08#8,
        0x05#8, 0x03#8, 0x00#8, 0x04#8, 0x00#8, 0x00#8, 0x01#8, 0x00#8].map some, 34#16) := by decide

/-- S2: the tagged request, with the settings of S1. -/
theorem test_validate_tagged :
    (ran (exec .validate
      { framed frameIdTagged with
        expMacEn := true, expMac := { hi := 0x0011#16, lo := 0x22334455#32 }, expFrameId := 0xFEFE#16 })).map
        (fun t => (t.statusWord, t.view)) =
      some (0x00000300#32,
        { svc := 0x0005#16, xid := 1#32, delay := 0x80#16, dlen := 4#16, poff := 30#16, frameId := 0xFEFE#16,
          srcMac := { hi := 0x0011#16, lo := 0x22334455#32 } }) := by decide

/-- V-VAL-13b: the address is checked before the ethertype, and the old view is gone (V-VAL-17). -/
theorem test_validate_address_first :
    (ran (exec .validate
      { framed ([0x02#8, 0x00#8, 0x00#8, 0x00#8, 0x00#8, 0x01#8, 0x00#8, 0x11#8, 0x22#8, 0x33#8, 0x44#8, 0x55#8, 0x08#8] ++
          List.replicate 7 0#8) with
        expMacEn := true, expMac := { hi := 0x000A#16, lo := 0x0B0C0D0E#32 }, viewValid := true, vlanPresent := true,
        view := { View.zero with dlen := 9#16 } })).map (fun t => (t.statusWord, t.view)) =
      some (0x00000005#32, View.zero) := by decide

/-- V-PAR-01. -/
theorem test_parse_par01 :
    (ran (exec .parse (viewed blocksPar01))).map (fun t => (t.desc.name.text, [t.desc.vendorId, t.desc.deviceId],
        [t.desc.ipAddr, t.desc.ipMask, t.desc.ipGw, t.statusWord])) =
      some ([0x70#8, 0x6C#8, 0x63#8, 0x2D#8, 0x30#8, 0x31#8], [0x002A#16, 0x0101#16],
        [0x0A000005#32, 0xFFFFFF00#32, 0x0A000001#32, 0x00000100#32]) := by decide

/-- V-PAR-12a: no wrap at 16 bits. -/
theorem test_parse_overrun :
    (ran (exec .parse (viewed [0x02#8, 0x02#8, 0xFF#8, 0xFF#8, 0x00#8, 0x00#8, 0x41#8, 0x42#8]))).map
      (fun t => (t.desc, t.statusWord)) = some (Descriptor.empty, 0x00000500#32) := by decide

/-- V-PAR-20. -/
theorem test_custom :
    (ran (exec (.blkDevpropCustom 7#16)
      (viewed [0x02#8, 0x01#8, 0x00#8, 0x07#8, 0x00#8, 0x00#8, 0x41#8, 0x42#8, 0x43#8, 0x44#8, 0x45#8, 0x00#8]))).map
      (fun t => t.desc.vendor.text) = some [0x41#8, 0x42#8, 0x43#8, 0x44#8, 0x45#8] := by decide

/-- V-PAR-13: the first copy does not survive. -/
theorem test_name_replaces :
    (ran (exec .parse (viewed ([0x02#8, 0x02#8, 0x00#8, 0x05#8, 0x00#8, 0x00#8, 0x61#8, 0x62#8, 0x63#8, 0x00#8] ++
      [0x02#8, 0x02#8, 0x00#8, 0x04#8, 0x00#8, 0x00#8, 0x78#8, 0x79#8])))).map
      (fun t => (t.desc.name.text, t.desc.name.bytes[2])) = some ([0x78#8, 0x79#8], 0x00#8) := by decide

/-- V-PAR-08a: too short to be read. -/
theorem test_id_short :
    (ran (exec (.blkDevpropId 4#16) (viewed [0x02#8, 0x03#8, 0x00#8, 0x04#8, 0x00#8, 0x00#8, 0x00#8, 0x2A#8]))).map
      (fun t => t.desc) = some Descriptor.empty := by decide

/-- V-PAR-11, the first block. -/
theorem test_role :
    (ran (exec (.blkDevpropRole 4#16) (viewed [0x02#8, 0x04#8, 0x00#8, 0x04#8, 0x00#8, 0x00#8, 0x05#8, 0x00#8]))).map
      (fun t => t.desc.role) = some 5#8 := by decide

/-- V-PAR-19. -/
theorem test_ip :
    (ran (exec (.blkAddressIp 14#16) (viewed [0x01#8, 0x02#8, 0x00#8, 0x0E#8, 0x00#8, 0x01#8, 0xC0#8, 0xA8#8, 0x00#8, 0x0A#8,
      0xFF#8, 0xFF#8, 0x00#8, 0x00#8, 0xC0#8, 0xA8#8, 0x00#8, 0x01#8]))).map
      (fun t => (t.desc.ipStatus, t.desc.ipAddr, t.desc.ipMask, t.desc.ipGw)) =
      some (1#16, 0xC0A8000A#32, 0xFFFF0000#32, 0xC0A80001#32) := by decide

/-- V-PAR-14: the unknown block is skipped. -/
theorem test_other :
    (ran (exec .parse (viewed ([0x03#8, 0x05#8, 0x00#8, 0x03#8, 0xAA#8, 0xBB#8, 0xCC#8, 0x00#8] ++
      [0x02#8, 0x04#8, 0x00#8, 0x04#8, 0x00#8, 0x00#8, 0x07#8, 0x00#8])))).map
      (fun t => (t.desc.role, t.parseOverrun)) = some (7#8, false) := by decide

/-- V-BUS-03. -/
theorem test_read_misaligned :
    (ran (step (upcoming State.reset [.r32 0x006#16]))).map State.response = some .busError := by decide

/-- V-BUS-08. -/
theorem test_ctrl_reserved_bits :
    (ran (step (upcoming State.reset [.w32 0x008#16 0xFFFFFFFF#32]))).map (fun t => readReg t .ctrl) =
      some 0x00000001#32 := by decide

/-- SETMAC of R76, as program P2 line 3 encodes it. -/
theorem test_setmac : setmacProgram .exp 0x001122334455#48 = [.w32 0x020#16 0x00000011#32, .w32 0x024#16 0x22334455#32] := by
  decide

/-- LOADRX of R76, and CMD VALIDATE. -/
theorem test_loadrx : loadrxProgram [0xAA#8, 0xBB#8] ++ cmdProgram .validate =
    [.w8 0x4000#16 0xAA#8, .w8 0x4001#16 0xBB#8, .w32 0x028#16 2#32, .w32 0x000#16 3#32] := by decide

/-- withFetchWord: the very next step runs the instruction. -/
theorem test_fetch_word_command :
    (ran (step (State.reset.withFetchWord 32 3))).map State.result = some .truncEth := by decide
theorem test_fetch_word_block :
    (ran (step (State.reset.withFetchWord 16 0x0204))).map State.statusWord = some 0x00000100#32 := by decide

/-! ### Witnesses: for every statement with hypotheses, states and operands that meet them, at the clauses' boundaries -/

theorem witness_DecodeEncodeRoundTrip :
    (Instr.illegal 0#28 5#4).wf = true ∧ (Instr.illegal 1#28 4#4).wf = true ∧ (Instr.blkOther 2#8 0#8 0xFFFF#16).wf = true ∧
    (Instr.blkOther 2#8 5#8 0#16).wf = true ∧
    encode (.blkOther 2#8 5#8 0#16) = .block [2#8, 5#8, 0#8, 0#8] := by decide

theorem witness_CommandWordsFollowOpcodeMap :
    (0x00000010#32).extractLsb' 4 28 ≠ 0#28 ∧ 5 ≤ ((0x00000005#32).extractLsb' 0 4).toNat ∧
    5 ≤ ((0xFFFFFFFF#32).extractLsb' 0 4).toNat := by decide

theorem witness_BlockDispatchFollowsKeyMap :
    (2#8 ++ 1#8 : Half) = 0x0201#16 ∧ (2#8 ++ 2#8 : Half) = 0x0202#16 ∧ (2#8 ++ 3#8 : Half) = 0x0203#16 ∧
    (2#8 ++ 4#8 : Half) = 0x0204#16 ∧ (1#8 ++ 2#8 : Half) = 0x0102#16 ∧
    (2#8 ++ 0#8 : Half) ∉ [0x0201#16, 0x0202#16, 0x0203#16, 0x0204#16, 0x0102#16] ∧
    (2#8 ++ 5#8 : Half) ∉ [0x0201#16, 0x0202#16, 0x0203#16, 0x0204#16, 0x0102#16] := by decide

theorem witness_StepRunsDecodedCommand :
    (upcoming State.reset [.w32 0x000#16 0x00000007#32]).pending = .w32 0x000#16 0x00000007#32 :: [] ∧
    State.reset.pending = [] := by decide

/-- V-PAR-11's end: four bytes left, the loop ends. -/
theorem witness_ParseLoopRunsDecodedBlock_end : (viewed [0xFF#8, 0xFF#8, 0#8, 0#8]).remaining ≤ 4 := by decide

/-- V-PAR-10a: five bytes left, the block needs six. -/
theorem witness_ParseLoopRunsDecodedBlock_overrun :
    let s := viewed [2#8, 4#8, 0#8, 1#8, 7#8]
    4 < s.remaining ∧ s.blockStart + 4 ≤ s.rxLen.toNat ∧
    decodeBlockHeader (s.rxString s.blockStart 4) = .ok (.blkDevpropRole 1#16, []) ∧
    6 = 4 + (s.rxU16 (s.blockStart + 2)).toNat + (s.rxU16 (s.blockStart + 2)).toNat % 2 ∧ s.remaining < 6 := by decide

/-- V-PAR-10b: six bytes left, the block needs six. -/
theorem witness_ParseLoopRunsDecodedBlock_next :
    let s := viewed [2#8, 4#8, 0#8, 1#8, 7#8, 0#8]
    4 < s.remaining ∧ s.blockStart + 4 ≤ s.rxLen.toNat ∧
    decodeBlockHeader (s.rxString s.blockStart 4) = .ok (.blkDevpropRole 1#16, []) ∧
    6 = 4 + (s.rxU16 (s.blockStart + 2)).toNat + (s.rxU16 (s.blockStart + 2)).toNat % 2 ∧ 6 ≤ s.remaining ∧
    exec (.blkDevpropRole 1#16) s = .next s := ⟨by decide, by decide, by decide, by decide, by decide, rfl⟩

/-- A state no run reaches: the view goes on past RX_LEN. -/
theorem witness_ParseLoopRunsDecodedBlock_fault :
    let s := { viewed [2#8, 4#8, 0#8, 3#8, 0#8, 0#8, 7#8, 0#8] with rxLen := 30#16 }
    4 < s.remaining ∧ s.blockStart + 4 ≤ s.rxLen.toNat ∧
    decodeBlockHeader (s.rxString s.blockStart 4) = .ok (.blkDevpropRole 3#16, []) ∧
    8 = 4 + (s.rxU16 (s.blockStart + 2)).toNat + (s.rxU16 (s.blockStart + 2)).toNat % 2 ∧ 8 ≤ s.remaining ∧
    exec (.blkDevpropRole 3#16) s = .fault (.rxReadOutOfBounds 32) :=
  ⟨by decide, by decide, by decide, by decide, by decide, rfl⟩

theorem witness_IllegalCommandWritesResultOnly :
    (5#32 : Word) ∉ [0#32, 1#32, 2#32, 3#32, 4#32] ∧ (0x80000003#32 : Word) ∉ [0#32, 1#32, 2#32, 3#32, 4#32] := by decide

theorem witness_EncodersAreIdempotent :
    State.reset.tx.wf ∧ (∃ t, exec .encIdentify State.reset = .next t) ∧ ∃ t, exec .encFlashled State.reset = .next t :=
  ⟨reset_tx_wf, ⟨_, rfl⟩, ⟨_, rfl⟩⟩

theorem witness_IdentifyRequestValidates :
    ∃ t u : State, exec .encIdentify State.reset = .next t ∧ (∀ i, i < 30 → u.rx.read i = t.tx.read i) ∧
      u.rxLen = 30#16 ∧ u.expMacEn = true ∧ u.expMac = State.reset.srcMac ∧ u.expFrameId = 0xFEFE#16 :=
  ⟨_, { State.reset with rx := State.reset.identifyRequest, rxLen := 30#16, expMacEn := true, expFrameId := 0xFEFE#16 },
    rfl, fun _ _ => rfl, rfl, rfl, rfl, rfl⟩

theorem witness_RejectedValidateReportsFirstReason :
    validateReason State.reset ≠ .ok ∧ validateReason (framed (frameId.take 13)) = .truncEth ∧
    validateReason (framed (frameIdTagged.take 17)) = .truncVlan ∧
    validateReason (framed (frameId.take 15)) = .truncProfinet ∧ validateReason (framed (frameId.take 25)) = .truncDcp ∧
    validateReason (framed (frameId.take 29)) = .dlenExceeds ∧
    validateReason { framed frameId with expFrameId := 0xFEFD#16 } = .frameidMismatch ∧
    validateReason { framed (frameId.set 0 0x03#8) with expMacEn := true } = .addrMismatch ∧
    validateReason (framed (frameId.set 12 0x08#8)) = .protoMismatch := by decide

theorem witness_AcceptedValidateSetsView :
    validateReason (framed frameId) = .ok ∧ validateReason (framed frameIdTagged) = .ok := by decide

theorem witness_DestinationCheck : 14 ≤ (framed (frameId.take 14)).rxLen.toNat := by decide

theorem witness_VlanTransparency :
    let s := framed frameId
    let u := framed frameIdTagged
    14 ≤ s.rxLen.toNat ∧ u.rxLen.toNat = s.rxLen.toNat + 4 ∧ s.rxU16 12 = 0x8892#16 ∧ u.rxU16 12 = 0x8100#16 ∧
    u.rxU16 16 = 0x8892#16 ∧ (∀ i, i < 12 → u.rxAt i = s.rxAt i) ∧
    (∀ i, i < s.rxLen.toNat → 14 ≤ i → u.rxAt (i + 4) = s.rxAt i) ∧
    u.expMacEn = s.expMacEn ∧ u.expMac = s.expMac ∧ u.expFrameId = s.expFrameId := by decide

/-- V-VAL-14: 30 bytes of padding, then the frame as short as it can be. -/
theorem witness_TrailingBytesDoNotMatter :
    let s := framed (frameId ++ List.replicate 30 0#8)
    validateReason s = .ok ∧ s.frameView.poff.toNat + s.frameView.dlen.toNat ≤ (30#16).toNat ∧
    (∀ i, i < s.frameView.poff.toNat + s.frameView.dlen.toNat →
      ({ s with rx := (framed frameId).rx } : State).rxAt i = s.rxAt i) := by decide

theorem witness_ValidateReadsBelowRxLen :
    let s := framed (frameId.take 16)
    s.rx ≠ (framed frameId).rx ∧
    ∀ i, i < s.rxLen.toNat → ({ s with rx := (framed frameId).rx } : State).rxAt i = s.rxAt i := by decide

theorem witness_OnlyValidateMakesAView :
    (∃ t, step (upcoming (framed frameId) [.w32 0x000#16 0x00000003#32]) = .next t ∧ t.viewValid = true) ∧
    (upcoming (framed frameId) [.w32 0x000#16 0x00000003#32]).viewValid = false :=
  ⟨next_of_ran (by decide), rfl⟩

theorem witness_ParseWithoutViewIsNoView : (framed frameId).viewValid = false := by decide

/-- The payload ends exactly at RX_LEN. -/
theorem witness_ParseDescribesPayload :
    let s := viewed blocksPar01
    s.viewValid = true ∧ s.view.poff.toNat + s.view.dlen.toNat = s.rxLen.toNat := by decide

theorem witness_ParseReadsInsidePayload :
    let s := viewed blocksPar01
    let rx := (s.rx.write 25 0xEE#8).write 66 0xEE#8
    s.viewValid = true ∧ s.view.poff.toNat + s.view.dlen.toNat ≤ s.rxLen.toNat ∧ rx ≠ s.rx ∧
    ∀ i, i < s.view.poff.toNat + s.view.dlen.toNat → s.view.poff.toNat ≤ i →
      ({ s with rx := rx } : State).rxAt i = s.rxAt i := by decide

theorem witness_ParseTwiceGivesTheSame :
    (viewed blocksPar01).viewValid = true ∧
    ∃ t, exec .parse (viewed blocksPar01) = .next t ∧ t.desc.vendorId = 0x002A#16 :=
  ⟨rfl, next_of_ran (by decide)⟩

theorem witness_ParseLoopEnds :
    (viewed blocksPar01).cursor ≤ (viewed blocksPar01).view.dlen.toNat ∧
    (∃ t, parseLoop (viewed blocksPar01).view.dlen.toNat (viewed blocksPar01) = .ok t ∧ t.parseOverrun = false) ∧
    (∃ t, parseLoop 5 (viewed [2#8, 4#8, 0#8, 1#8, 7#8]) = .ok t ∧ t.parseOverrun = true) ∧ 16384 ≤ 16384 :=
  ⟨by decide, ok_of_toOption (by decide), ok_of_toOption (by decide), le_rfl⟩

/-- The bounds of the text blocks: L = 2 and 63 set the field, L = 1 and 64 do not. -/
theorem witness_CustomBlockSetsVendorValue :
    let s := { State.reset with rxLen := 67#16 }
    s.blockStart + 4 + (63#16).toNat ≤ s.rxLen.toNat ∧ s.blockStart + 4 + (2#16).toNat ≤ s.rxLen.toNat ∧
    (1#16).toNat < 2 ∧ 63 < (64#16).toNat := by decide

theorem witness_NameBlockSetsStationName :
    let s := viewed (List.replicate 67 0x41#8)
    2 ≤ (2#16).toNat ∧ (63#16).toNat ≤ 63 ∧ s.blockStart + 4 + (63#16).toNat ≤ s.rxLen.toNat ∧
    (0#16).toNat < 2 ∧ 63 < (200#16).toNat := by decide

theorem witness_IdBlockSetsIds :
    6 ≤ (6#16).toNat ∧ (viewed blocksPar01).blockStart + 4 + (6#16).toNat ≤ (viewed blocksPar01).rxLen.toNat ∧
    (5#16).toNat < 6 := by decide

theorem witness_RoleBlockSetsRole :
    3 ≤ (3#16).toNat ∧ (viewed blocksPar01).blockStart + 4 + (3#16).toNat ≤ (viewed blocksPar01).rxLen.toNat ∧
    (2#16).toNat < 3 := by decide

theorem witness_IpBlockSetsIpParameters :
    14 ≤ (14#16).toNat ∧ (viewed blocksPar01).blockStart + 4 + (14#16).toNat ≤ (viewed blocksPar01).rxLen.toNat ∧
    (13#16).toNat < 14 := by decide

theorem witness_OtherBlockIsSkipped :
    (5#8 ++ 3#8 : Half) ∉ [0x0201#16, 0x0202#16, 0x0203#16, 0x0204#16, 0x0102#16] ∧
    (1#8 ++ 1#8 : Half) ∉ [0x0201#16, 0x0202#16, 0x0203#16, 0x0204#16, 0x0102#16] := by decide

/-- The name block and the Id block of V-PAR-01, each at its own place. -/
theorem witness_DifferentBlockKindsCommute :
    let s := viewed blocksPar01
    (blockKey (.blkDevpropName 8#16)).isSome ∧ (blockKey (.blkDevpropId 6#16)).isSome ∧
    blockKey (.blkDevpropName 8#16) ≠ blockKey (.blkDevpropId 6#16) ∧
    (∃ t, exec (.blkDevpropName 8#16) { s with cursor := 0 } = .next t ∧ t.desc.name.len = 6#8) ∧
    ∃ u, exec (.blkDevpropId 6#16) { s with cursor := 12 } = .next u ∧ u.desc.vendorId = 0x002A#16 :=
  ⟨rfl, rfl, by decide, next_of_ran (by decide), next_of_ran (by decide)⟩

/-- V-PAR-07: two Id blocks. -/
theorem witness_LaterBlockOfAKindWins :
    let s := viewed ([2#8, 3#8, 0#8, 6#8, 0#8, 0#8, 0x00#8, 0x2A#8, 0x01#8, 0x01#8] ++
      [2#8, 3#8, 0#8, 6#8, 0#8, 0#8, 0x0A#8, 0xBC#8, 0x0D#8, 0xEF#8])
    blockQualifies (.blkDevpropId 6#16) = true ∧
    (∃ t, exec (.blkDevpropId 6#16) { s with cursor := 0 } = .next t ∧ t.desc.vendorId = 0x002A#16) ∧
    ∃ u, exec (.blkDevpropId 6#16) { s with cursor := 10 } = .next u ∧ u.desc.vendorId = 0x0ABC#16 :=
  ⟨rfl, next_of_ran (by decide), next_of_ran (by decide)⟩

/-- The block-info of a Role block of length 4, its last body byte and the byte after it changed. -/
theorem witness_DevicePropertiesReadOnlyTheirFields :
    let s := viewed [2#8, 4#8, 0#8, 4#8, 0#8, 0#8, 5#8, 0#8]
    let rx := ((s.rx.write 30 0xEE#8).write 31 0xEE#8).write 33 0xEE#8
    (∃ len, Instr.blkDevpropRole 4#16 = .blkDevpropRole len ∧ (7 : Nat) = 7) ∧
    (∀ k, k < 7 → 6 ≤ k → ({ s with rx := rx } : State).rxAt (s.blockStart + k) = s.rxAt (s.blockStart + k)) ∧
    ∃ t, exec (.blkDevpropRole 4#16) s = .next t ∧ t.desc.role = 5#8 :=
  ⟨⟨_, rfl, rfl⟩, by decide, next_of_ran (by decide)⟩

/-- The same for a Name block with its block-info changed, and an Id block of length 8 with a byte after its fields changed. -/
theorem witness_DevicePropertiesReadOnlyTheirFields_text_id :
    let s := viewed [2#8, 2#8, 0#8, 8#8, 0#8, 0#8, 0x70#8, 0x6C#8, 0x63#8, 0x2D#8, 0x30#8, 0x31#8]
    (∀ k, k < 4 + (8#16).toNat → 6 ≤ k →
      ({ s with rx := s.rx.write 30 0xEE#8 } : State).rxAt (s.blockStart + k) = s.rxAt (s.blockStart + k)) ∧
    (∃ t, exec (.blkDevpropName 8#16) s = .next t ∧ t.desc.name.len = 6#8) ∧
    (∀ k, k < 10 → 6 ≤ k →
      ({ s with rx := s.rx.write 36 0xEE#8 } : State).rxAt (s.blockStart + k) = s.rxAt (s.blockStart + k)) ∧
    ∃ t, exec (.blkDevpropId 8#16) s = .next t ∧ t.desc.vendorId = 0x706C#16 :=
  ⟨by decide, next_of_ran (by decide), by decide, next_of_ran (by decide)⟩

theorem witness_HostReadsHaveNoSideEffect :
    (upcoming State.reset [.r8 0x4000#16]).pending = .r8 0x4000#16 :: [] ∧
    (upcoming State.reset [.r32 0xFFFF#16]).pending = .r32 0xFFFF#16 :: [] := by decide

theorem witness_StatusReadsItsFields :
    (upcoming State.reset [.r32 0x004#16]).pending = .r32 0x004#16 :: [] := by decide

/-- Three of the rows, the first among them: CMD, RX_LEN and VIEW_POFF. -/
theorem witness_RegistersReadAtTheirAddresses (a : Half) (v : Word)
    (h : (a, v) ∈ [(0x000#16, 0#32), (0x028#16, 26#32), (0x040#16, 26#32)]) :
    let s := upcoming (viewed []) [.r32 a]
    s.pending = .r32 a :: [] ∧
    (a, v) ∈
      [(0x000#16, 0#32),
       (0x004#16, 0#21 ++ BitVec.ofBool s.parseOverrun ++ BitVec.ofBool s.vlanPresent ++ BitVec.ofBool s.viewValid ++
          s.result.code),
       (0x008#16, if s.expMacEn then 1#32 else 0#32), (0x00C#16, s.expFrameId.setWidth 32),
       (0x010#16, s.srcMac.hi.setWidth 32), (0x014#16, s.srcMac.lo), (0x018#16, s.dstMac.hi.setWidth 32),
       (0x01C#16, s.dstMac.lo), (0x020#16, s.expMac.hi.setWidth 32), (0x024#16, s.expMac.lo),
       (0x028#16, s.rxLen.setWidth 32), (0x02C#16, s.txLen.setWidth 32), (0x030#16, s.view.svc.setWidth 32),
       (0x034#16, s.view.xid), (0x038#16, s.view.delay.setWidth 32), (0x03C#16, s.view.dlen.setWidth 32),
       (0x040#16, s.view.poff.setWidth 32), (0x044#16, s.view.frameId.setWidth 32),
       (0x048#16, s.view.srcMac.hi.setWidth 32), (0x04C#16, s.view.srcMac.lo), (0x050#16, s.desc.vendorId.setWidth 32),
       (0x054#16, s.desc.deviceId.setWidth 32), (0x058#16, s.desc.role.setWidth 32), (0x05C#16, s.desc.ipAddr),
       (0x060#16, s.desc.ipMask), (0x064#16, s.desc.ipGw), (0x068#16, s.desc.ipStatus.setWidth 32),
       (0x06C#16, s.desc.name.len.setWidth 32), (0x070#16, s.desc.vendor.len.setWidth 32),
       (0x074#16, BitVec.ofNat 32 (Config.txbufSize * 65536 + Config.rxbufSize)),
       (0x078#16, Config.xidIdentify), (0x07C#16, Config.xidFlashled)] := by
  refine ⟨rfl, ?_⟩
  simp only [List.mem_cons, Prod.mk.injEq, List.not_mem_nil, or_false] at h
  rcases h with ⟨rfl, rfl⟩ | ⟨rfl, rfl⟩ | ⟨rfl, rfl⟩
  · exact .head _
  · exact List.mem_of_getElem? (i := 10) rfl
  · exact List.mem_of_getElem? (i := 16) rfl

theorem witness_ArgumentRegistersHoldWhatIsWritten :
    (upcoming State.reset [.w32 0x008#16 0xFFFFFFFF#32, .r32 0x008#16]).pending =
      .w32 0x008#16 0xFFFFFFFF#32 :: .r32 0x008#16 :: [] ∧
    ((0x008#16, Reg.ctrl, 0x00000001#32) : Half × Reg × Word) ∈
      [(0x008#16, .ctrl, 0x00000001#32), (0x00C#16, .expFrameId, 0x0000FFFF#32), (0x010#16, .srcMacHi, 0x0000FFFF#32),
       (0x014#16, .srcMacLo, 0xFFFFFFFF#32), (0x018#16, .dstMacHi, 0x0000FFFF#32), (0x01C#16, .dstMacLo, 0xFFFFFFFF#32),
       (0x020#16, .expMacHi, 0x0000FFFF#32), (0x024#16, .expMacLo, 0xFFFFFFFF#32)] := by decide

theorem witness_RxLenWriteSaturatesAndDropsView :
    (upcoming (viewed []) [.w32 0x028#16 0xFFFFFFFF#32]).pending = .w32 0x028#16 0xFFFFFFFF#32 :: [] := by decide

/-- The first and the last byte of RXBUF. -/
theorem witness_RxByteWriteStoresAndDropsView :
    0 < Config.rxbufSize ∧ Config.rxbufSize - 1 < Config.rxbufSize ∧
    (upcoming State.reset [.w8 (BitVec.ofNat 16 (0x4000 + 0)) 7#8, .r8 (BitVec.ofNat 16 (0x4000 + 0))]).pending =
      .w8 (BitVec.ofNat 16 (0x4000 + 0)) 7#8 :: .r8 (BitVec.ofNat 16 (0x4000 + 0)) :: [] := by
  have := rxbufSize_ge
  exact ⟨by omega, by omega, rfl⟩

theorem witness_ReadOnlyWritesAreIgnored :
    Reg.status ∉ [.cmd, .ctrl, .expFrameId, .srcMacHi, .srcMacLo, .dstMacHi, .dstMacLo, .expMacHi, .expMacLo, .rxLen] ∧
    (upcoming State.reset [.w32 Reg.status.addr 0xFFFFFFFF#32]).pending = .w32 Reg.status.addr 0xFFFFFFFF#32 :: [] ∧
    (0x0100 ≤ (0x0100#16).toNat ∧ (0x013E#16).toNat ≤ 0x013E) ∧ (0x0140 ≤ (0x0140#16).toNat ∧ (0x017E#16).toNat ≤ 0x017E) ∧
    0x8000 ≤ (0x8000#16).toNat ∧ (0x8000#16).toNat < 0x8000 + Config.txbufSize := by
  have := txbufSize_ge
  refine ⟨by decide, rfl, by decide, by decide, by decide, ?_⟩
  simp only [BitVec.toNat_ofNat]
  omega

/-- The ends of the text windows; a written and an unwritten byte at the ends of RXBUF and of TXBUF. -/
theorem witness_ByteWindowsRead :
    (0 < Config.rxbufSize ∧ ({ State.reset with rx := [(0, 7#8)] }).rx.read 0 = some 7#8) ∧
    (Config.rxbufSize - 1 < Config.rxbufSize ∧ State.reset.rx.read (Config.rxbufSize - 1) = none) ∧
    (0 < Config.txbufSize ∧ ({ State.reset with tx := [(0, 7#8)] }).tx.read 0 = some 7#8) ∧
    (Config.txbufSize - 1 < Config.txbufSize ∧ State.reset.tx.read (Config.txbufSize - 1) = none) ∧
    (∀ i, (upcoming State.reset [.r8 (BitVec.ofNat 16 (0x4000 + i))]).pending = .r8 (BitVec.ofNat 16 (0x4000 + i)) :: []) ∧
    (∀ i, (upcoming State.reset [.r8 (BitVec.ofNat 16 (0x8000 + i))]).pending = .r8 (BitVec.ofNat 16 (0x8000 + i)) :: []) ∧
    (upcoming State.reset [.r8 (BitVec.ofNat 16 (0x0100 + (62 : Fin 63).val))]).pending = .r8 0x013E#16 :: [] ∧
    (upcoming State.reset [.r8 (BitVec.ofNat 16 (0x0140 + (0 : Fin 63).val))]).pending = .r8 0x0140#16 :: [] := by
  have := txbufSize_ge
  have := rxbufSize_ge
  exact ⟨⟨by omega, rfl⟩, ⟨by omega, rfl⟩, ⟨by omega, rfl⟩, ⟨by omega, rfl⟩, fun _ => rfl, fun _ => rfl, rfl, rfl⟩

/-- The addresses where the clauses meet: the last register and the first address after it, the ends of the text windows and
the first byte after RXBUF and TXBUF. -/
theorem witness_RefusedAccessesAnswerBusError :
    (upcoming State.reset [.r32 0x07E#16]).pending = .r32 0x07E#16 :: [] ∧ (0x07E#16).toNat % 4 ≠ 0 ∧
    0x80 ≤ (0x080#16).toNat ∧ ((0x07C#16).toNat % 4 = 0 ∧ (0x07C#16).toNat < 0x80) ∧
    ¬((0x0100 ≤ (0x013F#16).toNat ∧ (0x013F#16).toNat ≤ 0x013E) ∨ (0x0140 ≤ (0x013F#16).toNat ∧ (0x013F#16).toNat ≤ 0x017E) ∨
      (0x4000 ≤ (0x013F#16).toNat ∧ (0x013F#16).toNat < 0x4000 + Config.rxbufSize) ∨
      (0x8000 ≤ (0x013F#16).toNat ∧ (0x013F#16).toNat < 0x8000 + Config.txbufSize)) ∧
    0x4000 ≤ (0x4000#16).toNat ∧ (0x4000#16).toNat < 0x4000 + Config.rxbufSize := by
  have := rxbufSize_ge
  refine ⟨rfl, by decide, by decide, by decide, ?_, by decide, ?_⟩
  · simp only [BitVec.toNat_ofNat]; omega
  · simp only [BitVec.toNat_ofNat]; omega

theorem witness_ResetStateReadsAsStated : Reg.status ∉ [.cfg, .xidIdCfg, .xidFlCfg] := by decide

theorem witness_ResetInputRestoresResetState :
    (upcoming (viewed blocksPar01) [.reset]).pending = .reset :: [] := by decide

theorem witness_CommandsWriteOnlyTheirState :
    (∃ t, exec .validate (framed frameId) = .next t ∧ t.viewValid = true) ∧ (viewed blocksPar01).viewValid = true ∧
    (∃ t, exec .parse (viewed blocksPar01) = .next t ∧ t.result = .ok) ∧
    (∃ t, exec .parse (framed frameId) = .next t ∧ t.result = .noView) ∧
    (∃ t, exec (.illegal 1#28 0#4) (framed frameId) = .next t ∧ t.result = .illegalCmd) :=
  ⟨next_of_ran (by decide), rfl, next_of_ran (by decide), next_of_ran (by decide), next_of_ran (by decide)⟩

/-- Fourteen bytes received, an Identify request built, a VALIDATE to come: a state with the invariant, and it steps. -/
theorem witness_StepKeepsInvariant :
    let s := upcoming { framed (frameId.take 14) with txLen := 30#16 } [.w32 0x000#16 0x00000003#32]
    Inv s ∧ ∃ t, step s = .next t ∧ t.result = .truncProfinet := by
  have h := rxbufSize_ge
  refine ⟨⟨?_, ?_, ?_, ?_, ?_, .inr (.inl rfl), ⟨by decide, ?_⟩, ⟨by decide, ?_⟩, ?_, ?_, rfl⟩, next_of_ran (by decide)⟩
  · exact (by decide : (Memory.writeBytes [] 0 (frameId.take 14)).wf)
  · exact (by decide : Memory.wf [])
  · intro p hp
    exact lt_of_lt_of_le ((by decide : (Memory.writeBytes [] 0 (frameId.take 14)).within 14) p hp) h
  · exact (by decide : ∀ p ∈ ([] : Memory), p.1 < Config.txbufSize)
  · exact h
  · exact fun i _ => by simp [upcoming, framed, State.reset, Descriptor.empty, TextField.empty]
  · exact fun i _ => by simp [upcoming, framed, State.reset, Descriptor.empty, TextField.empty]
  · exact fun hv => nomatch hv
  · exact fun hv => nomatch hv

/-- The same state never stops. -/
theorem witness_NoReachableStateStops :
    Inv (upcoming { framed (frameId.take 14) with txLen := 30#16 } [.w32 0x000#16 0x00000003#32]) :=
  witness_StepKeepsInvariant.1

/-- A valid view of an Identify request's headers, with a host write of RXBUF to come. -/
theorem witness_ViewAlwaysDescribesBuffer :
    let s := upcoming { framed frameId with
      viewValid := true,
      view := { svc := 0x0005#16, xid := 1#32, delay := 0x80#16, dlen := 4#16, poff := 26#16, frameId := 0xFEFE#16,
                srcMac := { hi := 0x0011#16, lo := 0x22334455#32 } } } [.w8 0x4000#16 0#8]
    (∃ t, step s = .next t) ∧ s.viewValid = true ∧ ViewDescribesBuffer s := by
  refine ⟨⟨_, rfl⟩, rfl, fun _ => ⟨fun k b hk h => ?_, fun k b hk h => ?_⟩⟩
  · rw [← h]
    clear h
    interval_cases k <;> rfl
  · rw [← h]
    clear h
    interval_cases k <;> rfl

end Sys2Proof.Machine.Tests
end

namespace Sys2Proof.Machine

/-! ### The block kinds on a block that lies below RX_LEN

A block whose payload ends at or below RX_LEN (R61) is answered: one equation where its length check passes
(R181 to R185), one where it does not. -/

theorem blockCustom_ok {s : State} {len : Half} (hl : 2 ≤ len.toNat ∧ len.toNat ≤ 63)
    (hb : s.blockStart + 4 + len.toNat ≤ s.rxLen.toNat) :
    blockCustom len s = .ok (s.setDesc
      { s.desc with vendor := TextField.ofBytes (s.rxString (s.blockStart + 6) (len.toNat - 2)) }) := by
  rw [blockCustom, textOfBlock_ok hl hb]
  rfl

theorem blockCustom_skip {s : State} {len : Half} (hl : ¬(2 ≤ len.toNat ∧ len.toNat ≤ 63)) :
    blockCustom len s = .ok s := by
  rw [blockCustom, textOfBlock_skip hl]
  rfl

theorem blockName_ok {s : State} {len : Half} (hl : 2 ≤ len.toNat ∧ len.toNat ≤ 63)
    (hb : s.blockStart + 4 + len.toNat ≤ s.rxLen.toNat) :
    blockName len s = .ok (s.setDesc
      { s.desc with name := TextField.ofBytes (s.rxString (s.blockStart + 6) (len.toNat - 2)) }) := by
  rw [blockName, textOfBlock_ok hl hb]
  rfl

theorem blockName_skip {s : State} {len : Half} (hl : ¬(2 ≤ len.toNat ∧ len.toNat ≤ 63)) :
    blockName len s = .ok s := by
  rw [blockName, textOfBlock_skip hl]
  rfl

theorem blockId_ok {s : State} {len : Half} (hl : 6 ≤ len.toNat)
    (hb : s.blockStart + 4 + len.toNat ≤ s.rxLen.toNat) :
    blockId len s = .ok (s.setDesc
      { s.desc with vendorId := s.rxU16 (s.blockStart + 6), deviceId := s.rxU16 (s.blockStart + 8) }) := by
  rw [blockId, if_pos hl, rx16_ok (by omega), engine_ok, rx16_ok (by omega), engine_ok]
  rfl

theorem blockId_skip {s : State} {len : Half} (hl : ¬6 ≤ len.toNat) : blockId len s = .ok s := if_neg hl

theorem blockRole_ok {s : State} {len : Half} (hl : 3 ≤ len.toNat)
    (hb : s.blockStart + 4 + len.toNat ≤ s.rxLen.toNat) :
    blockRole len s = .ok (s.setDesc { s.desc with role := s.rxAt (s.blockStart + 6) }) := by
  rw [blockRole, if_pos hl, rxByte_ok (by omega), engine_ok]
  rfl

theorem blockRole_skip {s : State} {len : Half} (hl : ¬3 ≤ len.toNat) : blockRole len s = .ok s := if_neg hl

theorem blockIp_ok {s : State} {len : Half} (hl : 14 ≤ len.toNat)
    (hb : s.blockStart + 4 + len.toNat ≤ s.rxLen.toNat) :
    blockIp len s = .ok (s.setDesc
      { s.desc with
        ipStatus := s.rxU16 (s.blockStart + 4), ipAddr := s.rxU32 (s.blockStart + 6),
        ipMask := s.rxU32 (s.blockStart + 10), ipGw := s.rxU32 (s.blockStart + 14) }) := by
  rw [blockIp, if_pos hl, rx16_ok (by omega), engine_ok, rx32_ok (by omega), engine_ok, rx32_ok (by omega), engine_ok,
    rx32_ok (by omega), engine_ok]
  rfl

theorem blockIp_skip {s : State} {len : Half} (hl : ¬14 ≤ len.toNat) : blockIp len s = .ok s := if_neg hl

/-- Every dispatched block that lies below RX_LEN is answered, whatever its pair and its length (R177, R188). -/
theorem dispatchBlock_completes {s : State} {len : Half} (option suboption : Byte)
    (hb : s.blockStart + 4 + len.toNat ≤ s.rxLen.toNat) : ∃ t, dispatchBlock option suboption len s = .ok t := by
  unfold dispatchBlock
  split
  · by_cases hl : 2 ≤ len.toNat ∧ len.toNat ≤ 63
    · exact ⟨_, blockCustom_ok hl hb⟩
    · exact ⟨_, blockCustom_skip hl⟩
  · by_cases hl : 2 ≤ len.toNat ∧ len.toNat ≤ 63
    · exact ⟨_, blockName_ok hl hb⟩
    · exact ⟨_, blockName_skip hl⟩
  · by_cases hl : 6 ≤ len.toNat
    · exact ⟨_, blockId_ok hl hb⟩
    · exact ⟨_, blockId_skip hl⟩
  · by_cases hl : 3 ≤ len.toNat
    · exact ⟨_, blockRole_ok hl hb⟩
    · exact ⟨_, blockRole_skip hl⟩
  · by_cases hl : 14 ≤ len.toNat
    · exact ⟨_, blockIp_ok hl hb⟩
    · exact ⟨_, blockIp_skip hl⟩
  · exact ⟨_, rfl⟩

/-! ### PARSE on a view whose payload lies below RX_LEN -/

/-- One turn of the loop with more than four payload bytes left, on a view below RX_LEN: the header is read and the
block is dispatched exactly where it fits in what remains (R173 to R177). -/
theorem parseLoop_turn {s : State} (fuel : Nat) (hrem : 4 < s.remaining)
    (hfits : s.view.poff.toNat + s.view.dlen.toNat ≤ s.rxLen.toNat) :
    parseLoop (fuel + 1) s =
      if s.remaining < blockSize (s.rxU16 (s.blockStart + 2)) then .ok { s with parseOverrun := true }
      else dispatchBlock (s.rxAt s.blockStart) (s.rxAt (s.blockStart + 1)) (s.rxU16 (s.blockStart + 2)) s >>=
        fun t => parseLoop fuel (t.advance (blockSize (s.rxU16 (s.blockStart + 2)))) := by
  have hhead : s.blockStart + 4 ≤ s.rxLen.toNat := by
    unfold State.remaining at hrem
    unfold State.blockStart
    omega
  rw [parseLoop, if_neg (by omega), readBlockHeader_ok hhead, engine_ok]

/-- A block that fits in the rest of a payload below RX_LEN ends at or below RX_LEN. -/
theorem block_below_rxLen {s : State} {len : Half} (hrem : 4 < s.remaining) (hblock : ¬s.remaining < blockSize len)
    (hfits : s.view.poff.toNat + s.view.dlen.toNat ≤ s.rxLen.toNat) :
    s.blockStart + 4 + len.toNat ≤ s.rxLen.toNat := by
  unfold State.remaining at hrem hblock
  unfold blockSize at hblock
  unfold State.blockStart
  omega

/-- No turn of the loop reads at or above RX_LEN while the payload lies below it: the loop always answers (R188). -/
theorem parseLoop_completes (fuel : Nat) {s : State}
    (hfits : s.view.poff.toNat + s.view.dlen.toNat ≤ s.rxLen.toNat) : ∃ t, parseLoop fuel s = .ok t := by
  induction fuel generalizing s with
  | zero => exact ⟨_, rfl⟩
  | succ fuel ih =>
    by_cases hrem : s.remaining ≤ 4
    · exact ⟨_, if_pos hrem⟩
    · have hrem : 4 < s.remaining := by omega
      rw [parseLoop_turn fuel hrem hfits]
      split_ifs with hblock
      · exact ⟨_, rfl⟩
      · obtain ⟨t, ht⟩ := dispatchBlock_completes _ _ (block_below_rxLen hrem hblock hfits)
        rw [ht, engine_ok]
        have hframe := dispatchBlock_frame ht
        refine ih ?_
        rw [hframe]
        exact hfits

/-- PARSE answers a next state wherever a valid view lies below RX_LEN. -/
theorem exec_parse_completes {s : State}
    (hfits : s.viewValid = true → s.view.poff.toNat + s.view.dlen.toNat ≤ s.rxLen.toNat) :
    ∃ t, exec .parse s = .next t := by
  change ∃ t, execParse s = .next t
  unfold execParse
  split_ifs with hv
  · obtain ⟨t, ht⟩ := parseLoop_completes s.view.dlen.toNat
      (s := { s with desc := Descriptor.empty, cursor := 0 }) (hfits hv)
    rw [parseView, ht, engine_ok]
    exact ⟨_, rfl⟩
  · exact ⟨_, rfl⟩

/-! ### VALIDATE never faults

Each step reads only behind the length check that guards it (R151), so the work can end early by a rejection only. -/

/-- The work may be rejected, but makes no read that R50 gives no meaning. -/
def NoFault {α : Type} (e : Engine α) : Prop := ∀ f, e ≠ .error (.fault f)

theorem noFault_ok {α : Type} (a : α) : NoFault (.ok a : Engine α) := nofun

theorem noFault_reject {α : Type} (code : ResultCode) : NoFault (.error (.reject code) : Engine α) := nofun

theorem noFault_require (c : Prop) [Decidable c] (code : ResultCode) : NoFault (require c code) := by
  by_cases hc : c
  · rw [require_pos hc]
    exact noFault_ok ()
  · rw [require_neg hc]
    exact noFault_reject code

/-- Work in sequence: the second part need only be safe after what the first part answered. -/
theorem noFault_bind {α β : Type} {x : Engine α} {f : α → Engine β} (hx : NoFault x)
    (hf : ∀ a, x = .ok a → NoFault (f a)) : NoFault (x >>= f) := by
  cases x with
  | ok a => exact hf a rfl
  | error e =>
    intro g hg
    rw [engine_error] at hg
    exact hx g (by rw [Except.error.inj hg])

/-- A gate in front of work: the work need only be safe where the gate's condition holds. -/
theorem noFault_require_bind {β : Type} {c : Prop} [Decidable c] {code : ResultCode} {f : Unit → Engine β}
    (hf : c → NoFault (f ())) : NoFault (require c code >>= f) :=
  noFault_bind (noFault_require c code) fun _ h => hf (require_eq_ok.mp h)

/-- Work that does not fault concludes in a next state. -/
theorem conclude_completes (s : State) {e : Engine State} (h : NoFault e) : ∃ t, conclude s e = .next t := by
  rcases e with (code | f) | t
  · exact ⟨_, conclude_reject s code⟩
  · exact absurd rfl (h f)
  · exact ⟨_, conclude_ok s t⟩

theorem noFault_checkDestination {s : State} (h : 14 ≤ s.rxLen.toNat) : NoFault (checkDestination s) := by
  rw [checkDestination_eq h]
  split_ifs
  · exact noFault_ok ()
  · exact noFault_reject _

theorem noFault_unwrapEthertype {s : State} (h : 14 ≤ s.rxLen.toNat) : NoFault (unwrapEthertype s) := by
  rw [unwrapEthertype, rx16_ok (by omega), engine_ok]
  split_ifs
  · refine noFault_require_bind fun hlen => ?_
    rw [rx16_ok (by omega), engine_ok]
    exact noFault_require_bind fun _ => noFault_ok _
  · exact noFault_require_bind fun _ => noFault_ok _

theorem noFault_checkFrameId (s : State) (p : Nat) : NoFault (checkFrameId s p) := by
  refine noFault_require_bind fun hlen => ?_
  rw [rx16_ok (by omega), engine_ok]
  exact noFault_require_bind fun _ => noFault_ok _

theorem noFault_readDcpHeader (s : State) (p : Nat) : NoFault (readDcpHeader s p) := by
  rcases Nat.lt_or_ge s.rxLen.toNat (p + 10) with hshort | hlong
  · rw [readDcpHeader_short hshort]
    exact noFault_reject _
  · rw [readDcpHeader_ok hlong]
    exact noFault_ok _

theorem noFault_validateFrame (s : State) : NoFault (validateFrame s) := by
  refine noFault_require_bind fun hlen => ?_
  refine noFault_bind (noFault_checkDestination hlen) fun _ _ => ?_
  refine noFault_bind (noFault_unwrapEthertype hlen) fun (p, vlan) _ => ?_
  refine noFault_bind (noFault_checkFrameId s p) fun fid _ => ?_
  refine noFault_bind (noFault_readDcpHeader s (p + 2)) fun hdr _ => ?_
  refine noFault_require_bind fun _ => ?_
  rw [rx48_ok (by omega), engine_ok]
  exact noFault_ok _

/-- VALIDATE answers a next state from every state. -/
theorem exec_validate_completes (s : State) : ∃ t, exec .validate s = .next t :=
  conclude_completes s.clearView (noFault_validateFrame s.clearView)

/-! ### Every command and every step answers -/

/-- A command word decodes to a command, never to a block kind (R71 to R73). -/
theorem decodeCommand_cases (w : Word) :
    decodeCommand w = .nop ∨ decodeCommand w = .encIdentify ∨ decodeCommand w = .encFlashled ∨
    decodeCommand w = .validate ∨ decodeCommand w = .parse ∨
    ∃ reserved opcode, decodeCommand w = .illegal reserved opcode := by
  unfold decodeCommand
  dsimp only
  split_ifs <;> simp

/-- The command of every CMD word answers a next state wherever a valid view lies below RX_LEN. -/
theorem exec_decodeCommand_completes (w : Word) {s : State}
    (hfits : s.viewValid = true → s.view.poff.toNat + s.view.dlen.toNat ≤ s.rxLen.toNat) :
    ∃ t, exec (decodeCommand w) s = .next t := by
  rcases decodeCommand_cases w with h | h | h | h | h | ⟨reserved, opcode, h⟩ <;> rw [h]
  · exact ⟨_, rfl⟩
  · exact ⟨_, exec_encIdentify s⟩
  · exact ⟨_, exec_encFlashled s⟩
  · exact exec_validate_completes s
  · exact exec_parse_completes hfits
  · exact ⟨_, rfl⟩

/-- Settles O51: only PARSE could stop, and `Inv.viewFits` keeps its view below RX_LEN. -/
theorem noReachableStateStops : Obligations.NoReachableStateStops := by
  intro s hinv
  cases hp : s.pending with
  | nil => exact ⟨s, by simp only [step, hp]⟩
  | cons ev rest =>
    cases hc : commandOf ev with
    | none => exact ⟨_, step_hostEvent hp hc⟩
    | some w =>
      rw [step_command hp hc]
      exact exec_decodeCommand_completes w hinv.viewFits

end Sys2Proof.Machine

namespace Sys2Proof.Machine

/-! ### VALIDATE's answer, from the frame alone

The engine's checks in sequence give exactly the first reason of R214's order, and an accepted frame gives the view
of the frame's own fields (R148). -/

theorem tagged_iff (s : State) : s.tagged = true ↔ s.rxU16 12 = ethertypeVlan := beq_iff_eq

/-- Step 3 of R140 where the Ethernet header was received (R144). -/
theorem unwrapEthertype_eq {s : State} (h : 14 ≤ s.rxLen.toNat) :
    unwrapEthertype s =
      if s.tagged = true ∧ s.rxLen.toNat < 18 then .error (.reject .truncVlan)
      else if s.innerEthertype ≠ 0x8892#16 then .error (.reject .protoMismatch)
      else .ok (s.profinetOffset, s.tagged) := by
  rw [unwrapEthertype, rx16_ok (by omega), engine_ok, ← if_congr (tagged_iff s) rfl rfl]
  unfold State.innerEthertype State.profinetOffset ethertypeProfinet
  by_cases htag : s.tagged = true
  · rw [if_pos htag, if_pos htag, if_pos htag, htag]
    by_cases hlen : s.rxLen.toNat < 18
    · rw [require_neg (by omega), if_pos ⟨rfl, hlen⟩, engine_error]
    · rw [require_pos (by omega), if_neg (fun h => hlen h.2), engine_ok, rx16_ok (by omega), engine_ok]
      by_cases het : s.rxU16 16 = 0x8892#16
      · rw [require_pos het, if_neg (not_not.mpr het)]; rfl
      · rw [require_neg het, if_pos het]; rfl
  · rw [if_neg htag, if_neg htag, if_neg htag, if_neg (fun h => htag h.1),
      eq_false_of_ne_true htag]
    by_cases het : s.rxU16 12 = 0x8892#16
    · rw [require_pos het, if_neg (not_not.mpr het)]; rfl
    · rw [require_neg het, if_pos het]; rfl

/-- Step 6 of R140 where the DCP header was received (R147). -/
theorem checkDeclaredLength_eq {s : State} {p : Nat} {dlen : Half} (h : p ≤ s.rxLen.toNat) :
    checkDeclaredLength s p dlen =
      if s.rxLen.toNat < p + dlen.toNat then .error (.reject .dlenExceeds) else .ok () := by
  rw [checkDeclaredLength]
  by_cases hlen : s.rxLen.toNat < p + dlen.toNat
  · rw [require_neg (by omega), if_pos hlen]
  · rw [require_pos (by omega), if_neg hlen]

/-- What VALIDATE's checks answer for a reason: the view of the frame, or the rejection. -/
def State.verdict (s : State) (reason : ResultCode) : Engine State :=
  if reason = .ok then .ok (s.acceptView s.frameView s.tagged) else .error (.reject reason)

/-- The checks of R140 run in R214's order: the first that fails names the reason, and a frame that passes them all
gives its view. -/
theorem validateFrame_eq (s : State) : validateFrame s = s.verdict (validateReason s) := by
  unfold validateFrame validateReason
  by_cases hEth : s.rxLen.toNat < 14
  · rw [if_pos hEth, checkEthernet_eq, if_neg (by omega)]; rfl
  rw [if_neg hEth, checkEthernet_eq, if_pos (by omega), engine_ok, checkDestination_eq (by omega)]
  by_cases hDst : s.destinationOk = true
  swap
  · rw [if_neg hDst, if_pos (eq_false_of_ne_true hDst)]; rfl
  rw [if_pos hDst, if_neg (ne_false_of_eq_true hDst), engine_ok, unwrapEthertype_eq (by omega)]
  by_cases hVlan : s.tagged = true ∧ s.rxLen.toNat < 18
  · rw [if_pos hVlan, if_pos hVlan]; rfl
  rw [if_neg hVlan, if_neg hVlan]
  by_cases hEt : s.innerEthertype ≠ 0x8892#16
  · rw [if_pos hEt, if_pos hEt]; rfl
  rw [if_neg hEt, if_neg hEt, engine_ok]
  dsimp only
  by_cases hPn : s.rxLen.toNat < s.profinetOffset + 2
  · rw [if_pos hPn, checkFrameId_short hPn]; rfl
  rw [if_neg hPn, checkFrameId_eq (by omega)]
  by_cases hFid : s.expFrameId = 0#16 ∨ s.rxU16 s.profinetOffset = s.expFrameId
  swap
  · rw [if_neg hFid, if_pos (show s.expFrameId ≠ 0#16 ∧ s.frameIdField ≠ s.expFrameId from not_or.mp hFid)]; rfl
  rw [if_pos hFid, if_neg (fun h => hFid.elim h.1 h.2), engine_ok]
  by_cases hDcp : s.rxLen.toNat < s.profinetOffset + 12
  · rw [if_pos hDcp, readDcpHeader_short (by omega)]; rfl
  rw [if_neg hDcp, readDcpHeader_ok (by omega), engine_ok]
  have hdlen : s.rxU16 (s.profinetOffset + 2 + 8) = s.dlenField := rfl
  dsimp only
  rw [hdlen, checkDeclaredLength_eq (by omega)]
  by_cases hDlen : s.rxLen.toNat < s.profinetOffset + 12 + s.dlenField.toNat
  · rw [if_pos hDlen, if_pos hDlen]; rfl
  rw [if_neg hDlen, if_neg hDlen, engine_ok, rx48_ok (by omega), engine_ok, ofMac_rxMac]
  have hpoff : BitVec.ofNat 16 (s.profinetOffset + 12) = if s.tagged = true then 30#16 else 26#16 := by
    unfold State.profinetOffset
    split_ifs <;> rfl
  rw [hpoff]
  rfl

/-- The checks read the frame and the arguments, and no view or flag. -/
theorem validateReason_clearView (s : State) : validateReason s.clearView = validateReason s := rfl

theorem exec_validate_accepted {s : State} (h : validateReason s = .ok) :
    exec .validate s = .next (s.acceptView s.frameView s.tagged) := by
  rw [exec_validate, validateFrame_eq, validateReason_clearView, State.verdict, if_pos h]
  rfl

theorem exec_validate_rejected {s : State} (h : validateReason s ≠ .ok) :
    exec .validate s = .next (s.clearView.setResult (validateReason s)) := by
  rw [exec_validate, validateFrame_eq, validateReason_clearView, State.verdict, if_neg h]
  rfl

/-- What VALIDATE can answer: a rejection that leaves no view, or the accepted frame's view. -/
theorem exec_validate_cases {s t : State} (h : exec .validate s = .next t) :
    (validateReason s ≠ .ok ∧ t = s.clearView.setResult (validateReason s)) ∨
    (validateReason s = .ok ∧ t = s.acceptView s.frameView s.tagged) := by
  by_cases hok : validateReason s = .ok
  · rw [exec_validate_accepted hok] at h
    exact .inr ⟨hok, (Host.Outcome.next.inj h).symm⟩
  · rw [exec_validate_rejected hok] at h
    exact .inl ⟨hok, (Host.Outcome.next.inj h).symm⟩

/-- The payload offset of an accepted frame's view: the PROFINET and DCP headers are 12 bytes (R40, R96). -/
theorem frameView_poff (s : State) : s.frameView.poff.toNat = s.profinetOffset + 12 := by
  unfold State.frameView State.profinetOffset
  dsimp only
  split_ifs <;> rfl

/-- A check in front of others: OK needs the check to pass and the others to give OK. -/
theorem ite_reason_eq_ok {c : Prop} [Decidable c] {code rest : ResultCode} (hcode : code ≠ .ok)
    (h : (if c then code else rest) = .ok) : ¬c ∧ rest = .ok := by
  by_cases hc : c
  · rw [if_pos hc] at h
    exact absurd h hcode
  · rw [if_neg hc] at h
    exact ⟨hc, h⟩

/-- An accepted frame's payload lies below RX_LEN (R147). -/
theorem frameView_fits {s : State} (h : validateReason s = .ok) :
    s.frameView.poff.toNat + s.frameView.dlen.toNat ≤ s.rxLen.toNat := by
  have hdlen : s.frameView.dlen = s.dlenField := rfl
  rw [frameView_poff, hdlen]
  unfold validateReason at h
  iterate 7 replace h := (ite_reason_eq_ok (by decide) h).2
  have hlen := (ite_reason_eq_ok (by decide) h).1
  omega

/-- Settles O17. -/
theorem acceptedValidateSetsView : Obligations.AcceptedValidateSetsView :=
  fun _ h => exec_validate_accepted h

/-! ### What the encoders leave of TXBUF -/

theorem writeRequestHeaders_read_above (m : Memory) (dst src : Mac) (frameId : Half) (serviceId : Byte) (xid : Word)
    (delay dlen : Half) {i : Nat} (h : 26 ≤ i) :
    (writeRequestHeaders m dst src frameId serviceId xid delay dlen).read i = m.read i := by
  simp only [writeRequestHeaders, Memory.read_memWrite]
  iterate 9 rw [if_neg (by omega)]

theorem writeBlockHeader_read_above (m : Memory) {a : Nat} (option suboption : Byte) (len : Half) {i : Nat}
    (h : a + 4 ≤ i) : (writeBlockHeader m a option suboption len).read i = m.read i := by
  simp only [writeBlockHeader, Memory.read_memWrite]
  iterate 3 rw [if_neg (by omega)]

/-- ENC_IDENTIFY writes TX[0..29] only (R48). -/
theorem identifyRequest_read_above (s : State) {i : Nat} (h : 30 ≤ i) : s.identifyRequest.read i = s.tx.read i := by
  rw [State.identifyRequest, writeBlockHeader_read_above _ _ _ _ h,
    writeRequestHeaders_read_above _ _ _ _ _ _ _ _ (by omega)]

/-- ENC_FLASHLED writes TX[0..33] only (R48). -/
theorem flashledRequest_read_above (s : State) {i : Nat} (h : 34 ≤ i) : s.flashledRequest.read i = s.tx.read i := by
  rw [State.flashledRequest, Memory.read_memWrite, if_neg (by omega), Memory.read_memWrite, if_neg (by omega),
    writeBlockHeader_read_above _ _ _ _ (by omega), writeRequestHeaders_read_above _ _ _ _ _ _ _ _ (by omega)]

/-- The end of an encoder command changes TXBUF, TX_LEN and RESULT only, whatever was built. -/
theorem finishFrame_frame (s : State) (tx : Memory) (length : Half) :
    s.finishFrame tx length =
      { s with
        tx := (s.finishFrame tx length).tx, txLen := (s.finishFrame tx length).txLen,
        result := (s.finishFrame tx length).result } := rfl

/-- The last four bytes of the flash-LED request: the Control/Signal block's body (R90, R101). -/
theorem flashledRequest_read_tail (s : State) :
    s.flashledRequest.read 30 = some 0x00#8 ∧ s.flashledRequest.read 31 = some 0x00#8 ∧
    s.flashledRequest.read 32 = some 0x01#8 ∧ s.flashledRequest.read 33 = some 0x00#8 := by
  refine ⟨?_, ?_, ?_, ?_⟩ <;> simp [State.flashledRequest, Memory.read_memWrite, bytesBE_half]

/-- Settles O14: ENC_IDENTIFY leaves TX[30..33] as ENC_FLASHLED wrote them. -/
theorem identifyLeavesFlashledTail : Obligations.IdentifyLeavesFlashledTail := by
  intro s
  obtain ⟨h30, h31, h32, h33⟩ := flashledRequest_read_tail s
  refine ⟨_, _, exec_encFlashled s, exec_encIdentify _, ?_⟩
  rw [State.finishFrame_tx]
  iterate 4 rw [identifyRequest_read_above _ (by omega)]
  rw [State.finishFrame_tx]
  exact ⟨h30, h31, h32, h33, State.finishFrame_txLen _ _ _⟩

/-! ### PARSE is never rejected

No block and no turn of the loop raises a result code (R172, R178): PARSE with a view ends with OK or, in a state no run
reaches, in the fault of log entry 5. -/

/-- The work never ends early with a result code. -/
def NoReject {α : Type} (e : Engine α) : Prop := ∀ code, e ≠ .error (.reject code)

theorem noReject_ok {α : Type} (a : α) : NoReject (.ok a : Engine α) := nofun

theorem noReject_bind {α β : Type} {x : Engine α} {f : α → Engine β} (hx : NoReject x) (hf : ∀ a, NoReject (f a)) :
    NoReject (x >>= f) := by
  cases x with
  | ok a => exact hf a
  | error e =>
    intro code h
    rw [engine_error] at h
    exact hx code (by rw [Except.error.inj h])

/-- A branch of the engine's work that is skipped or run. -/
theorem noReject_ite {α : Type} {c : Prop} [Decidable c] {x y : Engine α} (hx : NoReject x) (hy : NoReject y) :
    NoReject (if c then x else y) := by
  split_ifs
  · exact hx
  · exact hy

theorem noReject_rxByte (s : State) (i : Nat) : NoReject (rxByte s i) := noReject_ite (noReject_ok _) nofun

theorem noReject_rx16 (s : State) (a : Nat) : NoReject (rx16 s a) :=
  noReject_bind (noReject_rxByte s a) fun _ => noReject_bind (noReject_rxByte s (a + 1)) fun _ => noReject_ok _

theorem noReject_rx32 (s : State) (a : Nat) : NoReject (rx32 s a) :=
  noReject_bind (noReject_rx16 s a) fun _ => noReject_bind (noReject_rx16 s (a + 2)) fun _ => noReject_ok _

theorem noReject_rxBytes (s : State) (a n : Nat) : NoReject (rxBytes s a n) := by
  induction n generalizing a with
  | zero => exact noReject_ok _
  | succ n ih => exact noReject_bind (noReject_rxByte s a) fun _ => noReject_bind (ih (a + 1)) fun _ => noReject_ok _

theorem noReject_textOfBlock (s : State) (len : Half) : NoReject (textOfBlock s len) :=
  noReject_ite (noReject_bind (noReject_rxBytes s _ _) fun _ => noReject_ok _) (noReject_ok _)

theorem noReject_blockCustom (len : Half) (s : State) : NoReject (blockCustom len s) :=
  noReject_bind (noReject_textOfBlock s len) fun text => by cases text <;> exact noReject_ok _

theorem noReject_blockName (len : Half) (s : State) : NoReject (blockName len s) :=
  noReject_bind (noReject_textOfBlock s len) fun text => by cases text <;> exact noReject_ok _

theorem noReject_blockId (len : Half) (s : State) : NoReject (blockId len s) :=
  noReject_ite
    (noReject_bind (noReject_rx16 s _) fun _ => noReject_bind (noReject_rx16 s _) fun _ => noReject_ok _)
    (noReject_ok _)

theorem noReject_blockRole (len : Half) (s : State) : NoReject (blockRole len s) :=
  noReject_ite (noReject_bind (noReject_rxByte s _) fun _ => noReject_ok _) (noReject_ok _)

theorem noReject_blockIp (len : Half) (s : State) : NoReject (blockIp len s) :=
  noReject_ite
    (noReject_bind (noReject_rx16 s _) fun _ => noReject_bind (noReject_rx32 s _) fun _ =>
      noReject_bind (noReject_rx32 s _) fun _ => noReject_bind (noReject_rx32 s _) fun _ => noReject_ok _)
    (noReject_ok _)

theorem noReject_dispatchBlock (option suboption : Byte) (len : Half) (s : State) :
    NoReject (dispatchBlock option suboption len s) := by
  unfold dispatchBlock
  split
  · exact noReject_blockCustom len s
  · exact noReject_blockName len s
  · exact noReject_blockId len s
  · exact noReject_blockRole len s
  · exact noReject_blockIp len s
  · exact noReject_ok s

theorem noReject_readBlockHeader (s : State) : NoReject (readBlockHeader s) :=
  noReject_bind (noReject_rxByte s _) fun _ => noReject_bind (noReject_rxByte s _) fun _ =>
    noReject_bind (noReject_rx16 s _) fun _ => noReject_ok _

theorem noReject_parseLoop (fuel : Nat) (s : State) : NoReject (parseLoop fuel s) := by
  induction fuel generalizing s with
  | zero => exact noReject_ok _
  | succ fuel ih =>
    refine noReject_ite (noReject_ok _) (noReject_bind (noReject_readBlockHeader s) fun (option, suboption, len) => ?_)
    exact noReject_ite (noReject_ok _) (noReject_bind (noReject_dispatchBlock option suboption len s) fun _ => ih _)

theorem noReject_parseView (s : State) : NoReject (parseView s) :=
  noReject_bind (noReject_parseLoop _ _) fun _ => noReject_ok _

/-! ### What PARSE can answer -/

/-- PARSE with a view: the loop's descriptor and PARSE_OVERRUN, RESULT = OK, and the cursor 0 again (R22, R179). -/
theorem parseView_next {s t : State} (h : parseView s = .ok t) :
    ∃ u, parseLoop s.view.dlen.toNat { s with desc := Descriptor.empty, cursor := 0 } = .ok u ∧
      t = { s with desc := u.desc, parseOverrun := u.parseOverrun, result := .ok, cursor := 0 } := by
  obtain ⟨u, hu, h⟩ := engine_bind_ok h
  refine ⟨u, hu, ?_⟩
  rw [← Except.ok.inj h, parseLoop_frame hu]

theorem exec_parse_noView {s : State} (h : s.viewValid = false) : exec .parse s = .next (s.setResult .noView) := by
  change execParse s = _
  rw [execParse, if_neg (by simp [h])]
  rfl

/-- What PARSE can answer with a view. -/
theorem exec_parse_view {s t : State} (hv : s.viewValid = true) (h : exec .parse s = .next t) :
    ∃ u, parseLoop s.view.dlen.toNat { s with desc := Descriptor.empty, cursor := 0 } = .ok u ∧
      t = { s with desc := u.desc, parseOverrun := u.parseOverrun, result := .ok, cursor := 0 } := by
  have h : execParse s = .next t := h
  rw [execParse, if_pos hv] at h
  obtain hok | ⟨code, hreject, -⟩ := conclude_next h
  · exact parseView_next hok
  · exact absurd hreject (noReject_parseView s code)

/-- Settles O48: one row of R48 after the other. -/
theorem commandsWriteOnlyTheirState : Obligations.CommandsWriteOnlyTheirState := by
  intro s t
  refine ⟨fun h => ?nop, fun h => ?identify, fun h => ?flashled, fun h => ?validate, fun h hv => ?parse,
    fun h hv => ?noView, fun r o h => ?illegal⟩
  case nop => exact (Host.Outcome.next.inj h).symm
  case identify =>
    rw [exec_encIdentify] at h
    obtain rfl := Host.Outcome.next.inj h
    refine ⟨finishFrame_frame s _ _, fun i hi => ?_⟩
    rw [State.finishFrame_tx, identifyRequest_read_above s hi]
  case flashled =>
    rw [exec_encFlashled] at h
    obtain rfl := Host.Outcome.next.inj h
    refine ⟨finishFrame_frame s _ _, fun i hi => ?_⟩
    rw [State.finishFrame_tx, flashledRequest_read_above s hi]
  case validate => obtain ⟨-, rfl⟩ | ⟨-, rfl⟩ := exec_validate_cases h <;> rfl
  case parse =>
    obtain ⟨u, -, rfl⟩ := exec_parse_view hv h
    rfl
  case noView =>
    rw [exec_parse_noView hv] at h
    obtain rfl := Host.Outcome.next.inj h
    rfl
  case illegal =>
    obtain rfl := Host.Outcome.next.inj h
    rfl

/-! ### The frame and its view through one step

Apart from a VALIDATE, a step either leaves RXBUF and the view of it as they are or drops the view (R26, R47). -/

/-- RXBUF, the view registers and VIEW_VALID are the same in both states. -/
structure SameFrame (s t : State) : Prop where
  viewValid : t.viewValid = s.viewValid
  view : t.view = s.view
  rx : t.rx = s.rx

theorem writeReg_frame (w : Word) (s : State) (r : Reg) :
    (writeReg w s r).viewValid = false ∨ SameFrame s (writeReg w s r) := by
  cases r
  case rxLen => exact .inl rfl
  all_goals exact .inr ⟨rfl, rfl, rfl⟩

theorem writeWindow_frame (v : Byte) (s : State) (b : WindowByte) :
    (writeWindow v s b).viewValid = false ∨ SameFrame s (writeWindow v s b) := by
  cases b
  case rx => exact .inl rfl
  all_goals exact .inr ⟨rfl, rfl, rfl⟩

theorem SameFrame.respond {s t : State} (h : SameFrame s t) (r : Response) : SameFrame s (t.respond r) :=
  ⟨h.viewValid, h.view, h.rx⟩

theorem hostEvent_frame (s : State) (ev : HostEvent) :
    (hostEvent s ev).viewValid = false ∨ SameFrame s (hostEvent s ev) := by
  have same : SameFrame s s := ⟨rfl, rfl, rfl⟩
  cases ev with
  | r8 a => cases hb : windowAt a <;> simpa only [hostEvent, hb] using .inr (same.respond _)
  | r32 a => cases hr : regAt a <;> simpa only [hostEvent, hr] using .inr (same.respond _)
  | w8 a v =>
    cases hb : windowAt a with
    | none => simpa only [hostEvent, hb] using .inr (same.respond _)
    | some b => simpa only [hostEvent, hb, State.respond_viewValid] using (writeWindow_frame v s b).imp_right (·.respond _)
  | w32 a w =>
    cases hr : regAt a with
    | none => simpa only [hostEvent, hr] using .inr (same.respond _)
    | some r => simpa only [hostEvent, hr, State.respond_viewValid] using (writeReg_frame w s r).imp_right (·.respond _)
  | reset => exact .inl rfl

theorem exec_parse_frame {s t : State} (h : exec .parse s = .next t) : SameFrame s t := by
  cases hv : s.viewValid with
  | false =>
    rw [exec_parse_noView hv] at h
    obtain rfl := Host.Outcome.next.inj h
    exact ⟨rfl, rfl, rfl⟩
  | true =>
    obtain ⟨u, -, rfl⟩ := exec_parse_view hv h
    exact ⟨rfl, rfl, rfl⟩

/-- Of the commands only VALIDATE writes the view, and none writes RXBUF (R48). -/
theorem exec_decodeCommand_frame {w : Word} {s t : State} (h : exec (decodeCommand w) s = .next t) :
    SameFrame s t ∨ decodeCommand w = .validate := by
  rcases decodeCommand_cases w with hw | hw | hw | hw | hw | ⟨reserved, opcode, hw⟩ <;> rw [hw] at h
  · obtain rfl := Host.Outcome.next.inj h
    exact .inl ⟨rfl, rfl, rfl⟩
  · obtain rfl := Host.Outcome.next.inj ((exec_encIdentify s).symm.trans h)
    exact .inl ⟨rfl, rfl, rfl⟩
  · obtain rfl := Host.Outcome.next.inj ((exec_encFlashled s).symm.trans h)
    exact .inl ⟨rfl, rfl, rfl⟩
  · exact .inr hw
  · exact .inl (exec_parse_frame h)
  · obtain rfl := Host.Outcome.next.inj h
    exact .inl ⟨rfl, rfl, rfl⟩

/-- What a step does to the frame and its view: the view is gone, both are as before, or the step ran a VALIDATE. -/
theorem step_frame_cases {s t : State} (h : step s = .next t) :
    t.viewValid = false ∨ SameFrame s t ∨
    ∃ a w rest, s.pending = .w32 a w :: rest ∧ regAt a = some .cmd ∧ decodeCommand w = .validate ∧
      exec .validate ((s.take rest).respond .done) = .next t := by
  obtain ⟨-, rfl⟩ | ⟨a, w, rest, hp, ha, hexec⟩ | ⟨ev, rest, -, -, rfl⟩ := step_cases h
  · exact .inr (.inl ⟨rfl, rfl, rfl⟩)
  · obtain same | hw := exec_decodeCommand_frame hexec
    · exact .inr (.inl ⟨same.viewValid, same.view, same.rx⟩)
    · exact .inr (.inr ⟨a, w, rest, hp, ha, hw, hw ▸ hexec⟩)
  · obtain hgone | same := hostEvent_frame (s.take rest) ev
    · exact .inl hgone
    · exact .inr (.inl ⟨same.viewValid, same.view, same.rx⟩)

/-- Only the command word 3 is VALIDATE (R72). -/
theorem eq_of_decodeCommand_validate {w : Word} (h : decodeCommand w = .validate) : w = 3#32 := by
  unfold decodeCommand at h
  dsimp only at h
  split_ifs at h with hreserved _ _ _ hopcode
  rw [← append_extract (n := 28) (m := 4) w, hreserved, hopcode]
  rfl

/-- Settles O22. -/
theorem onlyValidateMakesAView : Obligations.OnlyValidateMakesAView := by
  intro s t h hbefore hafter
  obtain hgone | same | ⟨a, w, rest, hp, ha, hw, hexec⟩ := step_frame_cases h
  · rw [hgone] at hafter
    contradiction
  · rw [same.viewValid, hbefore] at hafter
    contradiction
  · obtain rfl := eq_of_decodeCommand_validate hw
    obtain ⟨-, rfl⟩ | ⟨-, rfl⟩ := exec_validate_cases hexec
    · contradiction
    · exact ⟨a, rest, hp, regAt_cmd ha, rfl⟩

/-! ### An accepted frame's view describes the frame

The header bytes the view holds, in wire order, are the received bytes at their offsets (R96, R148). -/

theorem rxU16_hi (s : State) (a : Nat) : (s.rxU16 a).extractLsb' 8 8 = s.rxAt a := extract_append_hi _ _
theorem rxU16_lo (s : State) (a : Nat) : (s.rxU16 a).extractLsb' 0 8 = s.rxAt (a + 1) := extract_append_lo _ _

theorem wireU32_rxU32 (s : State) (a : Nat) :
    wireU32 (s.rxU32 a) = [s.rxAt a, s.rxAt (a + 1), s.rxAt (a + 2), s.rxAt (a + 3)] := by
  have h3 : (s.rxU32 a).extractLsb' 24 8 = (s.rxU16 a).extractLsb' 8 8 := extract_of_append_hi _ _ 8 8
  have h2 : (s.rxU32 a).extractLsb' 16 8 = (s.rxU16 a).extractLsb' 0 8 := extract_of_append_hi _ _ 0 8
  have h1 : (s.rxU32 a).extractLsb' 8 8 = (s.rxU16 (a + 2)).extractLsb' 8 8 := extract_of_append_lo _ _ 8 8 (by omega)
  have h0 : (s.rxU32 a).extractLsb' 0 8 = (s.rxU16 (a + 2)).extractLsb' 0 8 := extract_of_append_lo _ _ 0 8 (by omega)
  rw [wireU32, h3, h2, h1, h0, rxU16_hi, rxU16_lo, rxU16_hi, rxU16_lo]

theorem headerBytes_eq (v : View) :
    v.headerBytes =
      [v.frameId.extractLsb' 8 8, v.frameId.extractLsb' 0 8, v.svc.extractLsb' 0 8, v.svc.extractLsb' 8 8] ++
      wireU32 v.xid ++
      [v.delay.extractLsb' 8 8, v.delay.extractLsb' 0 8, v.dlen.extractLsb' 8 8, v.dlen.extractLsb' 0 8] := rfl

theorem frameView_headerBytes (s : State) : s.frameView.headerBytes = s.rxString s.profinetOffset 12 := by
  simp only [headerBytes_eq, State.frameView, State.frameIdField, State.dlenField, wireU32_rxU32, rxU16_hi, rxU16_lo,
    extract_append_hi, extract_append_lo]
  rfl

theorem wire_eq (m : MacPair) : m.wire = [m.hi.extractLsb' 8 8, m.hi.extractLsb' 0 8] ++ wireU32 m.lo := rfl

theorem frameView_srcMac_wire (s : State) : s.frameView.srcMac.wire = s.rxString 6 6 := by
  simp only [wire_eq, State.frameView, wireU32_rxU32, rxU16_hi, rxU16_lo]
  rfl

/-- A written byte is the one the engine reads there. -/
theorem rxString_getElem?_of_read {s : State} {a n k : Nat} {b : Byte} (hk : k < n) (h : s.rx.read (a + k) = some b) :
    (s.rxString a n)[k]? = some b := by
  simp [State.rxString, State.rxAt, hk, h]

theorem viewDescribesBuffer_acceptView (s : State) : ViewDescribesBuffer (s.acceptView s.frameView s.tagged) := by
  refine fun _ => ⟨fun k b hk hb => ?_, fun k b hk hb => ?_⟩
  · rw [State.acceptView_view, frameView_poff, Nat.add_sub_cancel] at hb
    rw [State.acceptView_view, frameView_headerBytes]
    exact rxString_getElem?_of_read hk hb
  · rw [State.acceptView_view, frameView_srcMac_wire]
    exact rxString_getElem?_of_read hk hb

/-- Where neither the frame nor the view changed, the view still describes it. -/
theorem ViewDescribesBuffer.of_sameFrame {s t : State} (h : ViewDescribesBuffer s) (same : SameFrame s t) :
    ViewDescribesBuffer t := by
  unfold ViewDescribesBuffer
  rw [same.viewValid, same.view, same.rx]
  exact h

theorem viewDescribesBuffer_of_noView {s : State} (h : s.viewValid = false) : ViewDescribesBuffer s :=
  fun hv => absurd hv (by simp [h])

/-- Settles O52: a step keeps frame and view, drops the view, or is the VALIDATE that makes it. -/
theorem viewAlwaysDescribesBuffer : Obligations.ViewAlwaysDescribesBuffer := by
  refine ⟨viewDescribesBuffer_of_noView rfl, fun s t hs h => ?_⟩
  obtain hgone | same | ⟨a, w, rest, -, -, -, hexec⟩ := step_frame_cases h
  · exact viewDescribesBuffer_of_noView hgone
  · exact hs.of_sameFrame same
  · obtain ⟨-, rfl⟩ | ⟨-, rfl⟩ := exec_validate_cases hexec
    · exact viewDescribesBuffer_of_noView rfl
    · exact viewDescribesBuffer_acceptView _

/-! ### PARSE keeps both texts well-formed (R44, R180) -/

/-- The station name and the vendor value are well-formed texts. -/
structure TextsWf (d : Descriptor) : Prop where
  name : d.name.wf
  vendor : d.vendor.wf

theorem textsWf_empty : TextsWf Descriptor.empty := ⟨TextField.empty_wf, TextField.empty_wf⟩

theorem rxBytes_length {s : State} {a n : Nat} {bs : List Byte} (h : rxBytes s a n = .ok bs) : bs.length = n := by
  induction n generalizing a bs with
  | zero => cases h; rfl
  | succ n ih =>
    obtain ⟨b, -, h⟩ := engine_bind_ok h
    obtain ⟨rest, hrest, h⟩ := engine_bind_ok h
    cases h
    rw [List.length_cons, ih hrest]

/-- The text of a block has at most 63 - 2 bytes. -/
theorem textOfBlock_wf {s : State} {len : Half} {text : TextField} (h : textOfBlock s len = .ok (some text)) :
    text.wf := by
  unfold textOfBlock at h
  split_ifs at h with hlen
  · obtain ⟨bs, hbs, h⟩ := engine_bind_ok h
    have htext : TextField.ofBytes bs = text := Option.some.inj (Except.ok.inj h)
    have := rxBytes_length hbs
    rw [← htext]
    exact TextField.ofBytes_wf (by omega)
  · cases h

theorem blockCustom_textsWf {len : Half} {s t : State} (hs : TextsWf s.desc) (h : blockCustom len s = .ok t) :
    TextsWf t.desc := by
  obtain ⟨text, htext, h⟩ := engine_bind_ok h
  cases text with
  | none => cases h; exact hs
  | some text => cases h; exact ⟨hs.name, textOfBlock_wf htext⟩

theorem blockName_textsWf {len : Half} {s t : State} (hs : TextsWf s.desc) (h : blockName len s = .ok t) :
    TextsWf t.desc := by
  obtain ⟨text, htext, h⟩ := engine_bind_ok h
  cases text with
  | none => cases h; exact hs
  | some text => cases h; exact ⟨textOfBlock_wf htext, hs.vendor⟩

theorem blockId_textsWf {len : Half} {s t : State} (hs : TextsWf s.desc) (h : blockId len s = .ok t) :
    TextsWf t.desc := by
  unfold blockId at h
  split_ifs at h
  · obtain ⟨_, -, h⟩ := engine_bind_ok h
    obtain ⟨_, -, h⟩ := engine_bind_ok h
    cases h
    exact ⟨hs.name, hs.vendor⟩
  · cases h
    exact hs

theorem blockRole_textsWf {len : Half} {s t : State} (hs : TextsWf s.desc) (h : blockRole len s = .ok t) :
    TextsWf t.desc := by
  unfold blockRole at h
  split_ifs at h
  · obtain ⟨_, -, h⟩ := engine_bind_ok h
    cases h
    exact ⟨hs.name, hs.vendor⟩
  · cases h
    exact hs

theorem blockIp_textsWf {len : Half} {s t : State} (hs : TextsWf s.desc) (h : blockIp len s = .ok t) :
    TextsWf t.desc := by
  unfold blockIp at h
  split_ifs at h
  · obtain ⟨_, -, h⟩ := engine_bind_ok h
    obtain ⟨_, -, h⟩ := engine_bind_ok h
    obtain ⟨_, -, h⟩ := engine_bind_ok h
    obtain ⟨_, -, h⟩ := engine_bind_ok h
    cases h
    exact ⟨hs.name, hs.vendor⟩
  · cases h
    exact hs

theorem dispatchBlock_textsWf {option suboption : Byte} {len : Half} {s t : State} (hs : TextsWf s.desc)
    (h : dispatchBlock option suboption len s = .ok t) : TextsWf t.desc := by
  unfold dispatchBlock at h
  split at h
  · exact blockCustom_textsWf hs h
  · exact blockName_textsWf hs h
  · exact blockId_textsWf hs h
  · exact blockRole_textsWf hs h
  · exact blockIp_textsWf hs h
  · cases h
    exact hs

theorem parseLoop_textsWf {fuel : Nat} {s t : State} (hs : TextsWf s.desc) (h : parseLoop fuel s = .ok t) :
    TextsWf t.desc := by
  induction fuel generalizing s with
  | zero => cases h; exact hs
  | succ fuel ih =>
    unfold parseLoop at h
    split_ifs at h
    · cases h
      exact hs
    · obtain ⟨⟨option, suboption, len⟩, -, h⟩ := engine_bind_ok h
      dsimp only at h
      split_ifs at h
      · cases h
        exact hs
      · obtain ⟨v, hv, h⟩ := engine_bind_ok h
        have htexts : TextsWf v.desc := dispatchBlock_textsWf hs hv
        exact ih (s := v.advance (blockSize len)) htexts h

/-! ### Every operation of a step keeps the invariant -/

theorem Inv.setResult {s : State} (h : Inv s) (code : ResultCode) : Inv (s.setResult code) := { h with }
theorem Inv.respond {s : State} (h : Inv s) (r : Response) : Inv (s.respond r) := { h with }
theorem Inv.take {s : State} (h : Inv s) (rest : List HostEvent) : Inv (s.take rest) := { h with }

/-- Without a view nothing is claimed of the view registers. -/
theorem Inv.dropView {s : State} (h : Inv s) : Inv s.dropView := { h with viewOffset := nofun, viewFits := nofun }
theorem Inv.clearView {s : State} (h : Inv s) : Inv s.clearView := { h with viewOffset := nofun, viewFits := nofun }

theorem Inv.finishFrame {s : State} (h : Inv s) {tx : Memory} {length : Half} (hwf : tx.wf)
    (hwithin : tx.within Config.txbufSize) (hlength : length = 0#16 ∨ length = 30#16 ∨ length = 34#16) :
    Inv (s.finishFrame tx length) :=
  { h with txWf := hwf, txWithin := hwithin, txLenLegal := hlength }

/-- An accepted frame's view starts at its payload and ends below RX_LEN (R40, R147). -/
theorem Inv.acceptView {s : State} (h : Inv s) (hok : validateReason s = .ok) :
    Inv (s.acceptView s.frameView s.tagged) :=
  { h with viewOffset := fun _ => rfl, viewFits := fun _ => frameView_fits hok }

/-- RX_LEN takes the written word saturated at RXBUF_SIZE, which fits its 16 bits (R12, R33). -/
theorem writeReg_rxLen_toNat (w : Word) (s : State) :
    (writeReg w s .rxLen).rxLen.toNat = min w.toNat Config.rxbufSize := by
  have := rxbufSize_le
  change (BitVec.ofNat 16 (min w.toNat Config.rxbufSize)).toNat = _
  rw [BitVec.toNat_ofNat]
  omega

theorem Inv.writeRxLen {s : State} (h : Inv s) (w : Word) : Inv (writeReg w s .rxLen) :=
  { h.dropView with
    rxLenFits := (writeReg_rxLen_toNat w s).le.trans (Nat.min_le_right _ _), viewOffset := nofun, viewFits := nofun }

theorem Inv.writeReg {s : State} (h : Inv s) (w : Word) (r : Reg) : Inv (writeReg w s r) := by
  cases r
  case rxLen => exact h.writeRxLen w
  all_goals exact { h with }

theorem Inv.writeWindow {s : State} (h : Inv s) {a : Half} {b : WindowByte} (ha : windowAt a = some b) (v : Byte) :
    Inv (writeWindow v s b) := by
  cases b with
  | rx i =>
    exact { h.dropView with
      rxWf := Memory.write_wf h.rxWf i v, rxWithin := Memory.write_within h.rxWithin (windowAt_eq_rx ha) v }
  | name i => exact h
  | vendor i => exact h
  | tx i => exact h

/-- Settles O49: nothing is written yet and there is no view (R49). -/
theorem resetKeepsInvariant : Obligations.ResetKeepsInvariant where
  rxWf := reset_rx_wf
  txWf := reset_tx_wf
  rxWithin := nofun
  txWithin := nofun
  rxLenFits := Nat.zero_le _
  txLenLegal := .inl rfl
  nameWf := TextField.empty_wf
  vendorWf := TextField.empty_wf
  viewOffset := nofun
  viewFits := nofun
  cursorIdle := rfl

theorem Inv.afterReset (s : State) : Inv s.afterReset :=
  have h : Inv State.reset := resetKeepsInvariant
  { h with }

theorem Inv.hostEvent {s : State} (h : Inv s) (ev : HostEvent) : Inv (hostEvent s ev) := by
  cases ev with
  | r8 a => cases hb : windowAt a <;> simpa only [Machine.hostEvent, hb] using h.respond _
  | r32 a => cases hr : regAt a <;> simpa only [Machine.hostEvent, hr] using h.respond _
  | w8 a v =>
    cases hb : windowAt a with
    | none => simpa only [Machine.hostEvent, hb] using h.respond _
    | some b => simpa only [Machine.hostEvent, hb] using (h.writeWindow hb v).respond _
  | w32 a w =>
    cases hr : regAt a with
    | none => simpa only [Machine.hostEvent, hr] using h.respond _
    | some r => simpa only [Machine.hostEvent, hr] using (h.writeReg w r).respond _
  | reset => exact Inv.afterReset s

theorem Inv.exec_validate {s t : State} (hs : Inv s) (h : exec .validate s = .next t) : Inv t := by
  obtain ⟨-, rfl⟩ | ⟨hok, rfl⟩ := exec_validate_cases h
  · exact hs.clearView.setResult _
  · exact hs.acceptView hok

theorem Inv.exec_parse {s t : State} (hs : Inv s) (h : exec .parse s = .next t) : Inv t := by
  cases hv : s.viewValid with
  | false =>
    rw [exec_parse_noView hv] at h
    obtain rfl := Host.Outcome.next.inj h
    exact hs.setResult _
  | true =>
    obtain ⟨u, hu, rfl⟩ := exec_parse_view hv h
    have htexts : TextsWf u.desc := parseLoop_textsWf textsWf_empty hu
    exact { hs with nameWf := htexts.name, vendorWf := htexts.vendor, cursorIdle := rfl }

/-- Every command keeps the invariant. -/
theorem Inv.exec_decodeCommand {w : Word} {s t : State} (hs : Inv s) (h : exec (decodeCommand w) s = .next t) :
    Inv t := by
  rcases decodeCommand_cases w with hw | hw | hw | hw | hw | ⟨reserved, opcode, hw⟩ <;> rw [hw] at h
  · obtain rfl := Host.Outcome.next.inj h
    exact hs
  · obtain rfl := Host.Outcome.next.inj ((exec_encIdentify s).symm.trans h)
    exact hs.finishFrame (identifyRequest_wf hs.txWf) (identifyRequest_within hs.txWithin) (.inr (.inl rfl))
  · obtain rfl := Host.Outcome.next.inj ((exec_encFlashled s).symm.trans h)
    exact hs.finishFrame (flashledRequest_wf hs.txWf) (flashledRequest_within hs.txWithin) (.inr (.inr rfl))
  · exact hs.exec_validate h
  · exact hs.exec_parse h
  · obtain rfl := Host.Outcome.next.inj h
    exact hs.setResult _

/-- Settles O50: an idle step changes nothing, a command and a host event keep the invariant. -/
theorem stepKeepsInvariant : Obligations.StepKeepsInvariant := by
  intro s t hs h
  obtain ⟨-, rfl⟩ | ⟨a, w, rest, -, -, hexec⟩ | ⟨ev, rest, -, -, rfl⟩ := step_cases h
  · exact hs
  · exact ((hs.take rest).respond .done).exec_decodeCommand hexec
  · exact (hs.take rest).hostEvent ev

/-! ### VALIDATE reads below RX_LEN only

Two contents of RXBUF that agree below RX_LEN answer every engine read alike: a byte at or above RX_LEN is never
answered (R50, R61), so every check and every field is the same. -/

section OtherContent

variable {s : State} {rx : Memory} (h : ∀ i, i < s.rxLen.toNat → ({ s with rx := rx } : State).rxAt i = s.rxAt i)
include h

theorem rxByte_otherContent (i : Nat) : rxByte { s with rx := rx } i = rxByte s i := by
  unfold rxByte
  by_cases hi : i < s.rxLen.toNat
  · rw [if_pos hi, if_pos hi, h i hi]
  · rw [if_neg hi, if_neg hi]

theorem rx16_otherContent (a : Nat) : rx16 { s with rx := rx } a = rx16 s a := by
  simp only [rx16, rxByte_otherContent h]

theorem rx32_otherContent (a : Nat) : rx32 { s with rx := rx } a = rx32 s a := by
  simp only [rx32, rx16_otherContent h]

theorem rx48_otherContent (a : Nat) : rx48 { s with rx := rx } a = rx48 s a := by
  simp only [rx48, rx16_otherContent h, rx32_otherContent h]

theorem checkDestination_otherContent : checkDestination { s with rx := rx } = checkDestination s := by
  simp only [checkDestination, rx48_otherContent h]

theorem unwrapEthertype_otherContent : unwrapEthertype { s with rx := rx } = unwrapEthertype s := by
  simp only [unwrapEthertype, rx16_otherContent h]

theorem checkFrameId_otherContent (p : Nat) : checkFrameId { s with rx := rx } p = checkFrameId s p := by
  simp only [checkFrameId, rx16_otherContent h]

theorem readDcpHeader_otherContent (p : Nat) : readDcpHeader { s with rx := rx } p = readDcpHeader s p := by
  simp only [readDcpHeader, rxByte_otherContent h, rx16_otherContent h, rx32_otherContent h]

/-- The checks give the same view or the same reason; only the content they leave in place differs. -/
theorem validateFrame_otherContent :
    validateFrame { s with rx := rx } = (fun t : State => { t with rx := rx }) <$> validateFrame s := by
  simp only [validateFrame, checkDestination_otherContent h, unwrapEthertype_otherContent h,
    checkFrameId_otherContent h, readDcpHeader_otherContent h, rx48_otherContent h, map_bind, map_pure]
  rfl

end OtherContent

/-- A command's end, where its work differs only in the content it leaves in place. -/
theorem conclude_otherContent {s t : State} {e : Engine State} (rx : Memory) (h : conclude s e = .next t) :
    conclude { s with rx := rx } ((fun t : State => { t with rx := rx }) <$> e) = .next { t with rx := rx } := by
  obtain rfl | ⟨code, rfl, rfl⟩ := conclude_next h <;> rfl

/-- Settles O21. -/
theorem validateReadsBelowRxLen : Obligations.ValidateReadsBelowRxLen := by
  intro s
  obtain ⟨t, ht⟩ := exec_validate_completes s
  refine ⟨t, ht, fun rx h => ?_⟩
  have hcleared : ∀ i, i < s.clearView.rxLen.toNat →
      ({ s.clearView with rx := rx } : State).rxAt i = s.clearView.rxAt i := h
  have hsame := validateFrame_otherContent hcleared
  calc exec .validate { s with rx := rx }
      = conclude { s.clearView with rx := rx } (validateFrame { s.clearView with rx := rx }) := rfl
    _ = .next { t with rx := rx } := by rw [hsame]; exact conclude_otherContent rx ht

/-! ### A step by the kind of the host's next event -/

/-- The write of a word to CMD (R25, R71). -/
theorem step_cmdWrite {s : State} {w : Word} {rest : List HostEvent} (h : s.pending = .w32 Reg.cmd.addr w :: rest) :
    step s = exec (decodeCommand w) ((s.take rest).respond .done) :=
  step_command h (by simp only [commandOf, regAt_addr, if_true])

/-- The write of any other register. -/
theorem step_regWrite {s : State} {r : Reg} {w : Word} {rest : List HostEvent} (hr : r ≠ .cmd)
    (h : s.pending = .w32 r.addr w :: rest) : step s = .next ((writeReg w (s.take rest) r).respond .done) := by
  rw [step_hostEvent h (by simp [commandOf, regAt_addr, hr])]
  simp only [hostEvent, regAt_addr]

theorem step_regRead {s : State} {r : Reg} {rest : List HostEvent} (h : s.pending = .r32 r.addr :: rest) :
    step s = .next ((s.take rest).respond (.data32 (readReg (s.take rest) r))) := by
  rw [step_hostEvent h rfl]
  simp only [hostEvent, regAt_addr]

theorem step_byteWrite {s : State} {a : Half} {b : WindowByte} {v : Byte} {rest : List HostEvent}
    (ha : windowAt a = some b) (h : s.pending = .w8 a v :: rest) :
    step s = .next ((writeWindow v (s.take rest) b).respond .done) := by
  rw [step_hostEvent h rfl]
  simp only [hostEvent, ha]

theorem step_byteRead {s : State} {a : Half} {b : WindowByte} {rest : List HostEvent} (ha : windowAt a = some b)
    (h : s.pending = .r8 a :: rest) :
    step s = .next ((s.take rest).respond (.data8 (readWindow (s.take rest) b))) := by
  rw [step_hostEvent h rfl]
  simp only [hostEvent, ha]

/-- Settles O6. -/
theorem stepRunsDecodedCommand : Obligations.StepRunsDecodedCommand :=
  ⟨fun _ _ _ h => step_cmdWrite h, fun s h => by simp only [step, h]⟩

/-- Settles O47. -/
theorem resetInputRestoresResetState : Obligations.ResetInputRestoresResetState :=
  fun _ _ h => step_hostEvent h rfl

/-! ### Register reads -/

/-- Taking an event and answering it change no register. -/
@[simp] theorem readReg_take (s : State) (rest : List HostEvent) (r : Reg) : readReg (s.take rest) r = readReg s r := by
  cases r <;> rfl
@[simp] theorem readReg_respond (s : State) (a : Response) (r : Reg) : readReg (s.respond a) r = readReg s r := by
  cases r <;> rfl

theorem readReg_ctrl (s : State) : readReg s .ctrl = if s.expMacEn then 1#32 else 0#32 := by
  unfold readReg
  cases s.expMacEn <;> rfl

/-- CFG reads TXBUF_SIZE in its upper and RXBUF_SIZE in its lower half (R35). -/
theorem readReg_cfg (s : State) :
    readReg s .cfg = BitVec.ofNat 32 (Config.txbufSize * 65536 + Config.rxbufSize) := by
  have htx := txbufSize_le
  have hrx := rxbufSize_le
  apply BitVec.eq_of_toNat_eq
  simp only [readReg, BitVec.toNat_append, BitVec.toNat_ofNat]
  rw [← Nat.shiftLeft_add_eq_or_of_lt (Nat.mod_lt _ (by decide)), Nat.shiftLeft_eq]
  omega

/-- Settles O39: the rows are the registers of R23, each at its address. -/
theorem registersReadAtTheirAddresses : Obligations.RegistersReadAtTheirAddresses := by
  intro s a v rest h hrow
  rw [← readReg_ctrl, ← readReg_cfg s] at hrow
  obtain ⟨r, -, hr⟩ : ∃ r ∈ allRegs, (r.addr, readReg s r) = (a, v) := List.mem_map.mp hrow
  obtain ⟨rfl, rfl⟩ := Prod.mk.inj hr
  refine ⟨_, step_regRead h, ?_⟩
  rw [State.respond_response, readReg_take]

theorem getLsbD_append_hi {n m : Nat} (x : BitVec n) (y : BitVec m) (k : Nat) :
    (x ++ y).getLsbD (m + k) = x.getLsbD k := by
  rw [BitVec.getLsbD_append, if_neg (by omega), Nat.add_sub_cancel_left]

theorem getLsbD_append_ofBool {n : Nat} (x : BitVec n) (b : Bool) : (x ++ BitVec.ofBool b).getLsbD 0 = b := by
  rw [BitVec.getLsbD_append, if_pos Nat.one_pos]
  cases b <;> rfl

/-- The fields of STATUS at their bits (R26): each is reached past the fields below it. -/
theorem statusWord_fields (s : State) :
    s.statusWord.extractLsb' 0 8 = s.result.code ∧ s.statusWord.getLsbD 8 = s.viewValid ∧
    s.statusWord.getLsbD 9 = s.vlanPresent ∧ s.statusWord.getLsbD 10 = s.parseOverrun ∧
    s.statusWord.extractLsb' 11 21 = 0#21 :=
  ⟨extract_append_lo _ _,
    (getLsbD_append_hi _ _ 0).trans (getLsbD_append_ofBool _ _),
    (getLsbD_append_hi _ _ 1).trans ((getLsbD_append_hi _ _ 0).trans (getLsbD_append_ofBool _ _)),
    (getLsbD_append_hi _ _ 2).trans
      ((getLsbD_append_hi _ _ 1).trans ((getLsbD_append_hi _ _ 0).trans (getLsbD_append_ofBool _ _))),
    (extract_of_append_hi _ _ 3 21).trans
      ((extract_of_append_hi _ _ 2 21).trans ((extract_of_append_hi _ _ 1 21).trans (extract_append_hi _ _)))⟩

/-- Settles O38. -/
theorem statusReadsItsFields : Obligations.StatusReadsItsFields := by
  intro s rest h
  refine ⟨_, s.statusWord, step_regRead (r := .status) h, ?_, statusWord_fields s⟩
  rw [State.respond_response, readReg_take]
  rfl

/-! ### Register writes -/

/-- `w` cut to its low 16 bits and extended again is `w` masked. -/
theorem setWidth_low_half (w : Word) : (w.extractLsb' 0 16).setWidth 32 = w &&& 0x0000FFFF#32 := by
  apply BitVec.eq_of_toNat_eq
  rw [BitVec.toNat_and, BitVec.toNat_setWidth, BitVec.extractLsb'_toNat, BitVec.toNat_ofNat,
    show 0xFFFF % 2 ^ 32 = 2 ^ 16 - 1 from rfl, Nat.and_two_pow_sub_one_eq_mod]
  omega

theorem setWidth_low_bit (w : Word) : (BitVec.ofBool (w.getLsbD 0)).setWidth 32 = w &&& 0x00000001#32 := by
  apply BitVec.eq_of_toNat_eq
  rw [BitVec.toNat_and, BitVec.toNat_setWidth, BitVec.toNat_ofBool, BitVec.toNat_ofNat,
    show 1 % 2 ^ 32 = 2 ^ 1 - 1 from rfl, Nat.and_two_pow_sub_one_eq_mod, BitVec.getLsbD, Nat.testBit_zero]
  rcases Nat.mod_two_eq_zero_or_one w.toNat with hbit | hbit <;> simp [hbit]

/-- A register write takes no event. -/
theorem writeReg_pending (w : Word) (s : State) (r : Reg) : (writeReg w s r).pending = s.pending := by cases r <;> rfl

/-- The argument registers with the mask of their named bits (R27 to R32). -/
def argumentRegs : List (Reg × Word) :=
  [(.ctrl, 0x00000001#32), (.expFrameId, 0x0000FFFF#32), (.srcMacHi, 0x0000FFFF#32), (.srcMacLo, 0xFFFFFFFF#32),
   (.dstMacHi, 0x0000FFFF#32), (.dstMacLo, 0xFFFFFFFF#32), (.expMacHi, 0x0000FFFF#32), (.expMacLo, 0xFFFFFFFF#32)]

/-- One register of `t` reads `v`; every other register, both buffers and the descriptor are those of `s`. -/
structure ChangesOnly (r : Reg) (v : Word) (s t : State) : Prop where
  written : readReg t r = v
  others : ∀ q, q ≠ r → readReg t q = readReg s q
  rx : t.rx = s.rx
  tx : t.tx = s.tx
  desc : t.desc = s.desc

/-- A write of an argument register stores its named bits and nothing else. -/
theorem writeReg_argument {r : Reg} {mask : Word} (hr : (r, mask) ∈ argumentRegs) (w : Word) (s : State) :
    ChangesOnly r (w &&& mask) s (writeReg w s r) := by
  have hlow := setWidth_low_half w
  have hbit := setWidth_low_bit w
  have hall : w = w &&& 0xFFFFFFFF#32 := (BitVec.and_allOnes (x := w)).symm
  simp only [argumentRegs, List.mem_cons, Prod.mk.injEq, List.not_mem_nil, or_false] at hr
  rcases hr with ⟨rfl, rfl⟩ | ⟨rfl, rfl⟩ | ⟨rfl, rfl⟩ | ⟨rfl, rfl⟩ | ⟨rfl, rfl⟩ | ⟨rfl, rfl⟩ | ⟨rfl, rfl⟩ | ⟨rfl, rfl⟩
  -- Each row's read-back is one of the three mask facts; its frame is a comparison with every other register.
  all_goals refine ⟨by assumption, fun q hq => ?_, rfl, rfl, rfl⟩
  all_goals cases q <;> simp [readReg, writeReg, State.statusWord] at hq ⊢

/-- Settles O40. -/
theorem argumentRegistersHoldWhatIsWritten : Obligations.ArgumentRegistersHoldWhatIsWritten := by
  intro s a r mask w rest hrow h
  obtain ⟨⟨r', mask'⟩, hr, heq⟩ : ∃ p ∈ argumentRegs, (p.1.addr, p.1, p.2) = (a, r, mask) := List.mem_map.mp hrow
  simp only [Prod.mk.injEq] at heq
  obtain ⟨rfl, rfl, rfl⟩ := heq
  have hcmd : r' ≠ .cmd := by
    rintro rfl
    exact absurd hr (by simp [argumentRegs])
  have hread : ((writeReg w (s.take (.r32 r'.addr :: rest)) r').respond .done).pending = .r32 r'.addr :: rest := by
    rw [State.respond_pending, writeReg_pending, State.take_pending]
  have hw := writeReg_argument hr w (s.take (.r32 r'.addr :: rest))
  refine ⟨_, _, step_regWrite hcmd h, State.respond_response _ _, step_regRead hread, ?_, fun q hq => ?_, ?_, ?_, ?_,
    ?_⟩
  · rw [State.respond_response, readReg_take, readReg_respond, hw.written]
  · rw [readReg_respond, readReg_take, readReg_respond, hw.others q hq, readReg_take]
  · simp only [State.respond_rx, State.take_rx, hw.rx]
  · simp only [State.respond_tx, State.take_tx, hw.tx]
  · simp only [State.respond_desc, State.take_desc, hw.desc]
  · rw [State.respond_pending, State.take_pending]

/-- Settles O41. -/
theorem rxLenWriteSaturatesAndDropsView : Obligations.RxLenWriteSaturatesAndDropsView := by
  intro s w rest h
  exact ⟨_, step_regWrite (r := .rxLen) (by decide) h, writeReg_rxLen_toNat w (s.take rest), rfl⟩

/-- A read-only register ignores the write (R24). -/
theorem writeReg_readOnly {r : Reg}
    (hr : r ∉ [.cmd, .ctrl, .expFrameId, .srcMacHi, .srcMacLo, .dstMacHi, .dstMacLo, .expMacHi, .expMacLo, .rxLen])
    (w : Word) (s : State) : writeReg w s r = s := by
  cases r
  case ctrl | expFrameId | srcMacHi | srcMacLo | dstMacHi | dstMacLo | expMacHi | expMacLo | rxLen =>
    exact absurd hr (by decide)
  all_goals rfl

/-- An address at or above a window's first address, as the window lemmas write it. -/
theorem half_eq_base_add {a : Half} {base : Nat} (h : base ≤ a.toNat) :
    BitVec.ofNat 16 (base + (a.toNat - base)) = a := by
  rw [Nat.add_sub_cancel' h, BitVec.ofNat_toNat, BitVec.setWidth_eq]

/-- An address of the D_NAME, D_VENDOR or TXBUF window holds a byte that ignores a write (R24, R56). -/
theorem windowAt_readOnly {a : Half}
    (h : (0x0100 ≤ a.toNat ∧ a.toNat ≤ 0x013E) ∨ (0x0140 ≤ a.toNat ∧ a.toNat ≤ 0x017E) ∨
      (0x8000 ≤ a.toNat ∧ a.toNat < 0x8000 + Config.txbufSize)) :
    ∃ b, windowAt a = some b ∧ ∀ v s, writeWindow v s b = s := by
  obtain ⟨hlo, hhi⟩ | ⟨hlo, hhi⟩ | ⟨hlo, hhi⟩ := h
  · have hb := windowAt_name ⟨a.toNat - 0x0100, by omega⟩
    rw [half_eq_base_add hlo] at hb
    exact ⟨_, hb, fun _ _ => rfl⟩
  · have hb := windowAt_vendor ⟨a.toNat - 0x0140, by omega⟩
    rw [half_eq_base_add hlo] at hb
    exact ⟨_, hb, fun _ _ => rfl⟩
  · have hb := windowAt_tx (i := a.toNat - 0x8000) (by omega)
    rw [half_eq_base_add hlo] at hb
    exact ⟨_, hb, fun _ _ => rfl⟩

/-- Settles O43. -/
theorem readOnlyWritesAreIgnored : Obligations.ReadOnlyWritesAreIgnored := by
  refine ⟨fun s r w rest hr h => ?_, fun s a v rest ha h => ?_⟩
  · have hcmd : r ≠ .cmd := by
      rintro rfl
      exact hr List.mem_cons_self
    rw [step_regWrite hcmd h, writeReg_readOnly hr]
    rfl
  · obtain ⟨b, hb, hsame⟩ := windowAt_readOnly ha
    rw [step_byteWrite hb h, hsame]
    rfl

/-! ### The byte windows -/

/-- Settles O42. -/
theorem rxByteWriteStoresAndDropsView : Obligations.RxByteWriteStoresAndDropsView := by
  intro s i v rest hi h
  have hread : (s.rx.write i v).read i = some v := by rw [Memory.read_write, if_pos rfl]
  refine ⟨_, _, step_byteWrite (windowAt_rx hi) h, hread, fun j hj => ?_, rfl, step_byteRead (windowAt_rx hi) rfl, ?_⟩
  · exact (Memory.read_write s.rx i j v).trans (if_neg hj)
  · rw [State.respond_response]
    exact congrArg (fun b : Option Byte => Response.data8 (b.getD _)) hread

/-- Settles O44. -/
theorem byteWindowsRead : Obligations.ByteWindowsRead := by
  intro s rest
  refine ⟨fun k h => ?name, fun k h => ?vendor, fun i hi h => ?rx, fun i hi h => ?tx⟩
  case name => exact ⟨_, step_byteRead (windowAt_name k) h, rfl⟩
  case vendor => exact ⟨_, step_byteRead (windowAt_vendor k) h, rfl⟩
  case rx =>
    refine ⟨_, step_byteRead (windowAt_rx hi) h, fun v hv => ?_, fun hnone => ?_⟩
    · simp [readWindow, State.rxAt, hv]
    · simp [readWindow, State.rxAt, hnone]
  case tx =>
    refine ⟨_, step_byteRead (windowAt_tx hi) h, fun v hv => ?_, fun hnone => ?_⟩
    · simp [readWindow, State.txAt, hv]
    · simp [readWindow, State.txAt, hnone]

/-! ### Reset -/

/-- After reset every register but the three that read parameters reads 0 (R49). -/
theorem readReg_reset {r : Reg} (hr : r ∉ [.cfg, .xidIdCfg, .xidFlCfg]) : readReg State.reset r = 0#32 := by
  cases r
  case cfg | xidIdCfg | xidFlCfg => exact absurd hr (by decide)
  all_goals rfl

/-- Settles O46: no view for PARSE, and no received byte for VALIDATE. -/
theorem resetStateReadsAsStated : Obligations.ResetStateReadsAsStated := by
  have hreason : validateReason State.reset = .truncEth := by decide
  refine ⟨fun _ hr => readReg_reset hr, rfl, rfl, rfl, ⟨_, exec_parse_noView rfl, rfl⟩,
    ⟨_, exec_validate_rejected (by rw [hreason]; decide), ?_⟩⟩
  rw [State.setResult_result, hreason]

end Sys2Proof.Machine

namespace Sys2Proof.Machine

/-! ### PARSE reads inside the payload only

Two contents of RXBUF that agree on the bytes a read covers answer it alike. Every read of PARSE lies in a block that fits
in what remains of the payload (R173, R175, R188), so the content outside the payload is only carried along. -/

/-- The content `rx` reads as the one `s` holds at the `n` indices from `a` on. -/
def SameBytes (rx : Memory) (s : State) (a n : Nat) : Prop :=
  ∀ i, a ≤ i → i < a + n → ({ s with rx := rx } : State).rxAt i = s.rxAt i

/-- Agreement on a byte string is agreement on every part of it. -/
theorem SameBytes.part {rx : Memory} {s : State} {a n : Nat} (h : SameBytes rx s a n) (b k : Nat) (hlo : a ≤ b)
    (hhi : b + k ≤ a + n) : SameBytes rx s b k :=
  fun i hi hk => h i (by omega) (by omega)

theorem blockStart_otherContent (s : State) (rx : Memory) : ({ s with rx := rx } : State).blockStart = s.blockStart := rfl

theorem remaining_otherContent (s : State) (rx : Memory) : ({ s with rx := rx } : State).remaining = s.remaining := rfl

section SameBytes

variable {rx : Memory} {s : State}

theorem rxByte_sameBytes {a : Nat} (h : SameBytes rx s a 1) : rxByte { s with rx := rx } a = rxByte s a := by
  simp only [rxByte, h a le_rfl (by omega)]

theorem rx16_sameBytes {a : Nat} (h : SameBytes rx s a 2) : rx16 { s with rx := rx } a = rx16 s a := by
  simp only [rx16, rxByte_sameBytes (h.part a 1 (by omega) (by omega)),
    rxByte_sameBytes (h.part (a + 1) 1 (by omega) (by omega))]

theorem rx32_sameBytes {a : Nat} (h : SameBytes rx s a 4) : rx32 { s with rx := rx } a = rx32 s a := by
  simp only [rx32, rx16_sameBytes (h.part a 2 (by omega) (by omega)),
    rx16_sameBytes (h.part (a + 2) 2 (by omega) (by omega))]

theorem rxBytes_sameBytes {a n : Nat} (h : SameBytes rx s a n) : rxBytes { s with rx := rx } a n = rxBytes s a n := by
  induction n generalizing a with
  | zero => rfl
  | succ n ih =>
    simp only [rxBytes, rxByte_sameBytes (h.part a 1 (by omega) (by omega)), ih (h.part (a + 1) n (by omega) (by omega))]

theorem readBlockHeader_sameBytes (h : SameBytes rx s s.blockStart 4) :
    readBlockHeader { s with rx := rx } = readBlockHeader s := by
  simp only [readBlockHeader, blockStart_otherContent, rxByte_sameBytes (h.part s.blockStart 1 (by omega) (by omega)),
    rxByte_sameBytes (h.part (s.blockStart + 1) 1 (by omega) (by omega)),
    rx16_sameBytes (h.part (s.blockStart + 2) 2 (by omega) (by omega))]

variable {len : Half} (h : SameBytes rx s s.blockStart (4 + len.toNat))
include h

theorem textOfBlock_sameBytes : textOfBlock { s with rx := rx } len = textOfBlock s len := by
  unfold textOfBlock
  split_ifs with hl
  · have hstart : ({ s with rx := rx } : State).blockStart = s.blockStart := rfl
    rw [blockStart_otherContent, rxBytes_sameBytes (h.part (s.blockStart + 6) (len.toNat - 2) (by omega) (by omega))]
  · rfl

theorem blockCustom_sameBytes :
    blockCustom len { s with rx := rx } = (fun t : State => { t with rx := rx }) <$> blockCustom len s := by
  rw [blockCustom, blockCustom, textOfBlock_sameBytes h, map_bind]
  congr 1
  funext text
  cases text <;> rfl

theorem blockName_sameBytes :
    blockName len { s with rx := rx } = (fun t : State => { t with rx := rx }) <$> blockName len s := by
  rw [blockName, blockName, textOfBlock_sameBytes h, map_bind]
  congr 1
  funext text
  cases text <;> rfl

theorem blockId_sameBytes :
    blockId len { s with rx := rx } = (fun t : State => { t with rx := rx }) <$> blockId len s := by
  unfold blockId
  split_ifs with hl
  · have hstart : ({ s with rx := rx } : State).blockStart = s.blockStart := rfl
    simp only [blockStart_otherContent, rx16_sameBytes (h.part (s.blockStart + 6) 2 (by omega) (by omega)),
      rx16_sameBytes (h.part (s.blockStart + 8) 2 (by omega) (by omega)), map_bind, map_pure]
    rfl
  · rfl

theorem blockRole_sameBytes :
    blockRole len { s with rx := rx } = (fun t : State => { t with rx := rx }) <$> blockRole len s := by
  unfold blockRole
  split_ifs with hl
  · have hstart : ({ s with rx := rx } : State).blockStart = s.blockStart := rfl
    simp only [blockStart_otherContent, rxByte_sameBytes (h.part (s.blockStart + 6) 1 (by omega) (by omega)),
      map_bind, map_pure]
    rfl
  · rfl

theorem blockIp_sameBytes :
    blockIp len { s with rx := rx } = (fun t : State => { t with rx := rx }) <$> blockIp len s := by
  unfold blockIp
  split_ifs with hl
  · have hstart : ({ s with rx := rx } : State).blockStart = s.blockStart := rfl
    simp only [blockStart_otherContent, rx16_sameBytes (h.part (s.blockStart + 4) 2 (by omega) (by omega)),
      rx32_sameBytes (h.part (s.blockStart + 6) 4 (by omega) (by omega)),
      rx32_sameBytes (h.part (s.blockStart + 10) 4 (by omega) (by omega)),
      rx32_sameBytes (h.part (s.blockStart + 14) 4 (by omega) (by omega)), map_bind, map_pure]
    rfl
  · rfl

/-- A dispatched block reads its own header and payload bytes only. -/
theorem dispatchBlock_sameBytes (option suboption : Byte) :
    dispatchBlock option suboption len { s with rx := rx } =
      (fun t : State => { t with rx := rx }) <$> dispatchBlock option suboption len s := by
  unfold dispatchBlock
  split
  · exact blockCustom_sameBytes h
  · exact blockName_sameBytes h
  · exact blockId_sameBytes h
  · exact blockRole_sameBytes h
  · exact blockIp_sameBytes h
  · rfl

end SameBytes

/-- The loop gives the same descriptor and PARSE_OVERRUN; only the content it leaves in place differs. -/
theorem parseLoop_sameBytes {rx : Memory} (fuel : Nat) {s : State}
    (h : SameBytes rx s s.view.poff.toNat s.view.dlen.toNat) :
    parseLoop fuel { s with rx := rx } = (fun t : State => { t with rx := rx }) <$> parseLoop fuel s := by
  induction fuel generalizing s with
  | zero => rfl
  | succ fuel ih =>
    rw [parseLoop, parseLoop, remaining_otherContent]
    split_ifs with hend
    · rfl
    -- With payload left, the bytes from the block's start on that still remain lie inside it.
    have hinside : ∀ k, k ≤ s.remaining → SameBytes rx s s.blockStart k := by
      unfold State.remaining at hend ⊢
      exact fun k hk => h.part s.blockStart k (Nat.le_add_right _ _) (by unfold State.blockStart; omega)
    rw [readBlockHeader_sameBytes (hinside 4 (by omega)), map_bind]
    congr 1
    funext ⟨option, suboption, len⟩
    dsimp only
    split_ifs with hover
    · rfl
    rw [dispatchBlock_sameBytes (hinside (4 + len.toNat) (by unfold blockSize at hover; omega))]
    cases ht : dispatchBlock option suboption len s with
    | error e => rfl
    | ok t =>
      have hnext : SameBytes rx (t.advance (blockSize len)) t.view.poff.toNat t.view.dlen.toNat := by
        rw [dispatchBlock_frame ht]
        exact h
      exact ih hnext

theorem parseView_sameBytes {rx : Memory} {s : State} (h : SameBytes rx s s.view.poff.toNat s.view.dlen.toNat) :
    parseView { s with rx := rx } = (fun t : State => { t with rx := rx }) <$> parseView s := by
  have hstart : SameBytes rx { s with desc := Descriptor.empty, cursor := 0 } s.view.poff.toNat s.view.dlen.toNat := h
  have hloop := parseLoop_sameBytes s.view.dlen.toNat hstart
  simp only [parseView]
  rw [hloop]
  simp only [map_bind, bind_map_left, map_pure]

/-- PARSE with a view concludes the work of `parseView`. -/
theorem exec_parse_eq_conclude {s : State} (hv : s.viewValid = true) : exec .parse s = conclude s (parseView s) :=
  if_pos hv

/-- Settles O25: the same work from the same payload, with the other content left in place. -/
theorem parseReadsInsidePayload : Obligations.ParseReadsInsidePayload := by
  intro s hv hfits
  obtain ⟨t, ht⟩ := exec_parse_completes fun _ => hfits
  refine ⟨t, ht, fun rx h => ?_⟩
  rw [exec_parse_eq_conclude hv] at ht
  calc exec .parse { s with rx := rx }
      = conclude { s with rx := rx } (parseView { s with rx := rx }) := exec_parse_eq_conclude hv
    _ = .next { t with rx := rx } := by rw [parseView_sameBytes h]; exact conclude_otherContent rx ht

/-! ### The address map and refused accesses -/

theorem Reg.addr_aligned (r : Reg) : r.addr.toNat % 4 = 0 ∧ r.addr.toNat < 0x80 := by cases r <;> decide

/-- The registers fill the words below 0x80 in order (R23). -/
theorem allRegs_addr : ∀ k : Fin 32, (allRegs[k.val]'k.isLt).addr.toNat = 4 * k.val := by decide

/-- The 32-bit accesses that the address map accepts (R55). -/
theorem exists_regAt_iff {a : Half} : (∃ r, regAt a = some r) ↔ a.toNat % 4 = 0 ∧ a.toNat < 0x80 := by
  constructor
  · rintro ⟨r, hr⟩
    obtain rfl := addr_of_regAt hr
    exact r.addr_aligned
  · rintro ⟨halign, hlt⟩
    have hk := allRegs_addr ⟨a.toNat / 4, by omega⟩
    have ha : (allRegs[a.toNat / 4]'(show a.toNat / 4 < 32 by omega)).addr = a :=
      BitVec.eq_of_toNat_eq (hk.trans (by dsimp only; omega))
    exact ⟨_, ha ▸ regAt_addr _⟩

/-- The addresses of the four byte windows (R56). -/
def InByteWindow (a : Half) : Prop :=
  (0x0100 ≤ a.toNat ∧ a.toNat ≤ 0x013E) ∨ (0x0140 ≤ a.toNat ∧ a.toNat ≤ 0x017E) ∨
  (0x4000 ≤ a.toNat ∧ a.toNat < 0x4000 + Config.rxbufSize) ∨
  (0x8000 ≤ a.toNat ∧ a.toNat < 0x8000 + Config.txbufSize)

/-- The 8-bit accesses that the address map accepts (R56). -/
theorem windowAt_eq_none_iff {a : Half} : windowAt a = none ↔ ¬InByteWindow a := by
  simp only [windowAt, InByteWindow]
  split_ifs <;> simp only [false_iff, true_iff] <;> omega

section Access

variable {s t : State} {ev : HostEvent} {rest : List HostEvent} {a : Half} (h : s.pending = ev :: rest)
include h

/-- A 32-bit access at an address without a register is refused (R55, R219). -/
theorem step_wordAccess_refused (hev : (∃ w, ev = .w32 a w) ∨ ev = .r32 a) (ha : regAt a = none) :
    step s = .next ((s.take rest).respond .busError) := by
  obtain ⟨w, rfl⟩ | rfl := hev
  · rw [step_hostEvent h (by simp [commandOf, ha])]
    simp only [hostEvent, ha]
  · rw [step_hostEvent h rfl]
    simp only [hostEvent, ha]

/-- An 8-bit access outside the byte windows is refused (R56, R219). -/
theorem step_byteAccess_refused (hev : (∃ v, ev = .w8 a v) ∨ ev = .r8 a) (ha : windowAt a = none) :
    step s = .next ((s.take rest).respond .busError) := by
  obtain ⟨v, rfl⟩ | rfl := hev <;>
  · rw [step_hostEvent h rfl]
    simp only [hostEvent, ha]

end Access

/-- Settles O37: the address is a register's or a window byte's, or the read is refused. -/
theorem hostReadsHaveNoSideEffect : Obligations.HostReadsHaveNoSideEffect := by
  rintro s a rest (h | h)
  · cases ha : windowAt a with
    | none => exact ⟨_, step_byteAccess_refused h (.inr rfl) ha⟩
    | some b => exact ⟨_, step_byteRead ha h⟩
  · cases ha : regAt a with
    | none => exact ⟨_, step_wordAccess_refused h (.inr rfl) ha⟩
    | some r =>
      obtain rfl := addr_of_regAt ha
      exact ⟨_, step_regRead h⟩

/-- No command writes the answer of the host port. -/
theorem exec_decodeCommand_response {w : Word} {s t : State} (h : exec (decodeCommand w) s = .next t) :
    t.response = s.response := by
  obtain ⟨nop, identify, flashled, validate, parse, noView, illegal⟩ := commandsWriteOnlyTheirState s t
  rcases decodeCommand_cases w with hw | hw | hw | hw | hw | ⟨reserved, opcode, hw⟩ <;> rw [hw] at h
  · rw [nop h]
  · rw [(identify h).1]
  · rw [(flashled h).1]
  · rw [validate h]
  · cases hv : s.viewValid with
    | true => rw [parse h hv]
    | false => rw [noView h hv]
  · rw [illegal reserved opcode h]

/-- A write of a register is answered as done, CMD's included. -/
theorem step_regWrite_response {s t : State} {r : Reg} {w : Word} {rest : List HostEvent}
    (h : s.pending = .w32 r.addr w :: rest) (hstep : step s = .next t) : t.response = .done := by
  by_cases hr : r = .cmd
  · subst hr
    rw [step_cmdWrite h] at hstep
    rw [exec_decodeCommand_response hstep, State.respond_response]
  · rw [step_regWrite hr h] at hstep
    rw [← Host.Outcome.next.inj hstep, State.respond_response]

/-- An access to a register is answered by something other than BUS_ERROR. -/
theorem step_wordAccess_answered {s t : State} {ev : HostEvent} {rest : List HostEvent} {r : Reg}
    (h : s.pending = ev :: rest) (hev : (∃ w, ev = .w32 r.addr w) ∨ ev = .r32 r.addr) (hstep : step s = .next t) :
    t.response ≠ .busError := by
  obtain ⟨w, rfl⟩ | rfl := hev
  · rw [step_regWrite_response h hstep]
    nofun
  · rw [step_regRead h] at hstep
    rw [← Host.Outcome.next.inj hstep, State.respond_response]
    nofun

/-- An access to a window byte is answered by something other than BUS_ERROR. -/
theorem step_byteAccess_answered {s t : State} {ev : HostEvent} {rest : List HostEvent} {a : Half} {b : WindowByte}
    (h : s.pending = ev :: rest) (hev : (∃ v, ev = .w8 a v) ∨ ev = .r8 a) (ha : windowAt a = some b)
    (hstep : step s = .next t) : t.response ≠ .busError := by
  obtain ⟨v, rfl⟩ | rfl := hev
  · rw [step_byteWrite ha h] at hstep
    rw [← Host.Outcome.next.inj hstep, State.respond_response]
    nofun
  · rw [step_byteRead ha h] at hstep
    rw [← Host.Outcome.next.inj hstep, State.respond_response]
    nofun

/-- Settles O45: the address map decides, and every access it maps is answered as done or by data. -/
theorem refusedAccessesAnswerBusError : Obligations.RefusedAccessesAnswerBusError := by
  intro s ev rest a h
  refine ⟨fun hev => ⟨fun hbad => ?wordRefused, fun halign hlt t hstep => ?wordAnswered⟩,
    fun hev => ⟨fun hbad => ?byteRefused, fun hin t hstep => ?byteAnswered⟩⟩
  case wordRefused =>
    refine step_wordAccess_refused h hev (Option.eq_none_iff_forall_ne_some.mpr fun r hr => ?_)
    have := exists_regAt_iff.mp ⟨r, hr⟩
    omega
  case wordAnswered =>
    obtain ⟨r, hr⟩ := exists_regAt_iff.mpr ⟨halign, hlt⟩
    obtain rfl := addr_of_regAt hr
    exact step_wordAccess_answered h hev hstep
  case byteRefused => exact step_byteAccess_refused h hev (windowAt_eq_none_iff.mpr hbad)
  case byteAnswered =>
    obtain ⟨b, hb⟩ := Option.ne_none_iff_exists'.mp fun hnone => windowAt_eq_none_iff.mp hnone hin
    exact step_byteAccess_answered h hev hb hstep

end Sys2Proof.Machine

namespace Sys2Proof

/-! ### The two encoding spaces

A command word is one of the five of R72 or illegal; a block header's key is one of the five of R98 or any other. One
equation of the decoder for each. -/

theorem isIllegalWord_iff {reserved : BitVec 28} {opcode : BitVec 4} :
    isIllegalWord reserved opcode = true ↔ reserved ≠ 0#28 ∨ 5 ≤ opcode.toNat := by
  simp [isIllegalWord]

/-- The illegal words are those from 5 on (R72, R73). -/
theorem isIllegalWord_iff_le (w : Word) :
    isIllegalWord (w.extractLsb' 4 28) (w.extractLsb' 0 4) = true ↔ 5 ≤ w.toNat := by
  have hlt := w.isLt
  simp only [isIllegalWord_iff, ne_eq, ← BitVec.toNat_inj, BitVec.extractLsb'_toNat, Nat.shiftRight_eq_div_pow,
    BitVec.toNat_ofNat]
  omega

theorem commandWord_cases (w : Word) :
    w = 0#32 ∨ w = 1#32 ∨ w = 2#32 ∨ w = 3#32 ∨ w = 4#32 ∨
    isIllegalWord (w.extractLsb' 4 28) (w.extractLsb' 0 4) = true := by
  rw [isIllegalWord_iff_le]
  bv_omega

theorem decodeCommand_illegal {w : Word} (h : isIllegalWord (w.extractLsb' 4 28) (w.extractLsb' 0 4) = true) :
    decodeCommand w = .illegal (w.extractLsb' 4 28) (w.extractLsb' 0 4) := by
  unfold decodeCommand
  dsimp only
  by_cases hreserved : w.extractLsb' 4 28 = 0#28
  · have hopcode : 5 ≤ (w.extractLsb' 0 4).toNat := (isIllegalWord_iff.mp h).resolve_left (not_not.mpr hreserved)
    have hne : ∀ k : BitVec 4, k.toNat < 5 → w.extractLsb' 0 4 ≠ k := by
      rintro k hk rfl
      omega
    rw [if_pos hreserved, if_neg (hne 0#4 (by decide)), if_neg (hne 1#4 (by decide)), if_neg (hne 2#4 (by decide)),
      if_neg (hne 3#4 (by decide)), if_neg (hne 4#4 (by decide))]
  · exact if_neg hreserved

/-- An ILLEGAL term's own word decodes to it (R73). -/
theorem decodeCommand_append {reserved : BitVec 28} {opcode : BitVec 4} (h : isIllegalWord reserved opcode = true) :
    decodeCommand (reserved ++ opcode) = .illegal reserved opcode := by
  have hhi : (reserved ++ opcode : Word).extractLsb' 4 28 = reserved := extract_append_hi reserved opcode
  have hlo : (reserved ++ opcode : Word).extractLsb' 0 4 = opcode := extract_append_lo reserved opcode
  rw [decodeCommand_illegal (by rwa [hhi, hlo]), hhi, hlo]

theorem isOtherKey_iff {o u : Byte} : isOtherKey o u = true ↔ o ++ u ∉ knownKeys := by simp [isOtherKey]

theorem key_cases (key : Half) :
    key = 0x0201#16 ∨ key = 0x0202#16 ∨ key = 0x0203#16 ∨ key = 0x0204#16 ∨ key = 0x0102#16 ∨ key ∉ knownKeys := by
  simp only [knownKeys, List.mem_cons, List.not_mem_nil, or_false]
  tauto

section Block

variable {o u : Byte} {len : Half}

theorem decodeBlock_custom (h : o ++ u = 0x0201#16) : decodeBlock o u len = .blkDevpropCustom len := if_pos h

theorem decodeBlock_name (h : o ++ u = 0x0202#16) : decodeBlock o u len = .blkDevpropName len := by
  simp [decodeBlock, h]

theorem decodeBlock_id (h : o ++ u = 0x0203#16) : decodeBlock o u len = .blkDevpropId len := by
  simp [decodeBlock, h]

theorem decodeBlock_role (h : o ++ u = 0x0204#16) : decodeBlock o u len = .blkDevpropRole len := by
  simp [decodeBlock, h]

theorem decodeBlock_ip (h : o ++ u = 0x0102#16) : decodeBlock o u len = .blkAddressIp len := by
  simp [decodeBlock, h]

theorem decodeBlock_other (h : o ++ u ∉ knownKeys) : decodeBlock o u len = .blkOther o u len := by
  simp only [knownKeys, List.mem_cons, List.not_mem_nil, or_false, not_or] at h
  obtain ⟨hcustom, hname, hid, hrole, hip⟩ := h
  simp only [decodeBlock, if_neg hcustom, if_neg hname, if_neg hid, if_neg hrole, if_neg hip]

end Block

/-- The header written for a pair and a block-length is their four bytes in wire order (R87). -/
theorem blockHeaderBytes_append (o u h l : Byte) : blockHeaderBytes (o ++ u) (h ++ l) = [o, u, h, l] := by
  simp only [blockHeaderBytes, extract_append_hi, extract_append_lo]

/-- A written header is read back as its key's two bytes and its block-length, whatever follows it. -/
theorem decodeBlockHeader_blockHeaderBytes (key len : Half) (rest : List Byte) :
    decodeBlockHeader (blockHeaderBytes key len ++ rest) =
      .ok (decodeBlock (key.extractLsb' 8 8) (key.extractLsb' 0 8) len, rest) := by
  simp only [blockHeaderBytes, List.cons_append, List.nil_append, decodeBlockHeader, half_of_bytes]

/-! ### Decode after encode -/

theorem decodeCommand_of_encode {i : Instr} {w : Word} (hwf : i.wf = true) (h : encode i = .command w) :
    decodeCommand w = i := by
  cases i with
  | nop | encIdentify | encFlashled | validate | parse =>
    obtain rfl := Code.command.inj h
    rfl
  | illegal reserved opcode =>
    obtain rfl := Code.command.inj h
    exact decodeCommand_append hwf
  | blkDevpropCustom | blkDevpropName | blkDevpropId | blkDevpropRole | blkAddressIp | blkOther => nomatch h

theorem decodeBlockHeader_of_encode {i : Instr} {header : List Byte} (hwf : i.wf = true)
    (h : encode i = .block header) (rest : List Byte) : decodeBlockHeader (header ++ rest) = .ok (i, rest) := by
  cases i with
  | nop | encIdentify | encFlashled | validate | parse | illegal => nomatch h
  | blkDevpropCustom len | blkDevpropName len | blkDevpropId len | blkDevpropRole len | blkAddressIp len =>
    obtain rfl := Code.block.inj h
    exact decodeBlockHeader_blockHeaderBytes _ len rest
  | blkOther o u len =>
    obtain rfl := Code.block.inj h
    rw [decodeBlockHeader_blockHeaderBytes, extract_append_hi, extract_append_lo,
      decodeBlock_other (isOtherKey_iff.mp hwf)]

/-- Settles O1, by the encoding space the instruction is written in. -/
theorem decodeEncodeRoundTrip : Obligations.DecodeEncodeRoundTrip := by
  intro i hwf
  refine ⟨?_, fun header rest h => decodeBlockHeader_of_encode hwf h rest⟩
  cases h : encode i with
  | command w => rw [decode, decodeCommand_of_encode hwf h]
  | block header =>
    have hdecode := decodeBlockHeader_of_encode hwf h []
    rw [List.append_nil] at hdecode
    rw [decode, hdecode]
    rfl

/-! ### Encode after decode -/

theorem encode_decodeCommand (w : Word) : (decodeCommand w).wf = true ∧ encode (decodeCommand w) = .command w := by
  rcases commandWord_cases w with rfl | rfl | rfl | rfl | rfl | h
  · exact ⟨rfl, rfl⟩
  · exact ⟨rfl, rfl⟩
  · exact ⟨rfl, rfl⟩
  · exact ⟨rfl, rfl⟩
  · exact ⟨rfl, rfl⟩
  · rw [decodeCommand_illegal h]
    exact ⟨h, congrArg Code.command (append_extract (n := 28) (m := 4) w)⟩

theorem encode_decodeBlock (o u : Byte) (len : Half) :
    (decodeBlock o u len).wf = true ∧ encode (decodeBlock o u len) = .block (blockHeaderBytes (o ++ u) len) := by
  rcases key_cases (o ++ u) with h | h | h | h | h | h
  · rw [decodeBlock_custom h, h]; exact ⟨rfl, rfl⟩
  · rw [decodeBlock_name h, h]; exact ⟨rfl, rfl⟩
  · rw [decodeBlock_id h, h]; exact ⟨rfl, rfl⟩
  · rw [decodeBlock_role h, h]; exact ⟨rfl, rfl⟩
  · rw [decodeBlock_ip h, h]; exact ⟨rfl, rfl⟩
  · rw [decodeBlock_other h]; exact ⟨isOtherKey_iff.mpr h, rfl⟩

/-- Settles O2. -/
theorem encodeDecodeRoundTrip : Obligations.EncodeDecodeRoundTrip :=
  ⟨encode_decodeCommand, fun o u h l => blockHeaderBytes_append o u h l ▸ encode_decodeBlock o u (h ++ l)⟩

/-- Settles O3. -/
theorem commandWordsFollowOpcodeMap : Obligations.CommandWordsFollowOpcodeMap :=
  ⟨rfl, rfl, rfl, rfl, rfl, fun _ h => decodeCommand_illegal (isIllegalWord_iff.mpr h)⟩

/-- Settles O5, by evaluating the decoder. -/
theorem sampleEncodingsDecode : Obligations.SampleEncodingsDecode := ⟨rfl, rfl, rfl, rfl, rfl⟩

end Sys2Proof

namespace Sys2Proof.Machine

/-! ### PARSE's dispatch and the decoder's map (R98, R177) -/

/-- A dispatch key as the pair of numbers that PARSE's own dispatch compares. -/
theorem append_eq_iff_toNat {o u : Byte} {key : Half} :
    o ++ u = key ↔ o.toNat = key.toNat / 256 ∧ u.toNat = key.toNat % 256 := by
  have hu := u.isLt
  rw [← BitVec.toNat_inj, BitVec.toNat_append, Nat.shiftLeft_eq, Nat.mul_comm, ← Nat.two_pow_add_eq_or_of_lt hu]
  omega

section Dispatch

variable {o u : Byte}

theorem dispatchBlock_custom (h : o ++ u = 0x0201#16) (len : Half) (s : State) :
    dispatchBlock o u len s = blockCustom len s := by
  obtain ⟨rfl, rfl⟩ : o = 2#8 ∧ u = 1#8 := append_inj.mp h
  rfl

theorem dispatchBlock_name (h : o ++ u = 0x0202#16) (len : Half) (s : State) :
    dispatchBlock o u len s = blockName len s := by
  obtain ⟨rfl, rfl⟩ : o = 2#8 ∧ u = 2#8 := append_inj.mp h
  rfl

theorem dispatchBlock_id (h : o ++ u = 0x0203#16) (len : Half) (s : State) :
    dispatchBlock o u len s = blockId len s := by
  obtain ⟨rfl, rfl⟩ : o = 2#8 ∧ u = 3#8 := append_inj.mp h
  rfl

theorem dispatchBlock_role (h : o ++ u = 0x0204#16) (len : Half) (s : State) :
    dispatchBlock o u len s = blockRole len s := by
  obtain ⟨rfl, rfl⟩ : o = 2#8 ∧ u = 4#8 := append_inj.mp h
  rfl

theorem dispatchBlock_ip (h : o ++ u = 0x0102#16) (len : Half) (s : State) :
    dispatchBlock o u len s = blockIp len s := by
  obtain ⟨rfl, rfl⟩ : o = 1#8 ∧ u = 2#8 := append_inj.mp h
  rfl

theorem dispatchBlock_other (h : o ++ u ∉ knownKeys) (len : Half) (s : State) : dispatchBlock o u len s = .ok s := by
  simp only [knownKeys, List.mem_cons, List.not_mem_nil, or_false, append_eq_iff_toNat, BitVec.toNat_ofNat] at h
  unfold dispatchBlock
  split
  case h_6 => rfl
  all_goals omega

end Dispatch

/-- PARSE's dispatch on a pair is the decoded instruction's own work. -/
theorem exec_decodeBlock (o u : Byte) (len : Half) (s : State) :
    exec (decodeBlock o u len) s = conclude s (dispatchBlock o u len s) := by
  rcases key_cases (o ++ u) with h | h | h | h | h | h
  · rw [decodeBlock_custom h, dispatchBlock_custom h]; rfl
  · rw [decodeBlock_name h, dispatchBlock_name h]; rfl
  · rw [decodeBlock_id h, dispatchBlock_id h]; rfl
  · rw [decodeBlock_role h, dispatchBlock_role h]; rfl
  · rw [decodeBlock_ip h, dispatchBlock_ip h]; rfl
  · rw [decodeBlock_other h, dispatchBlock_other h]; rfl

/-- Settles O4. -/
theorem blockDispatchFollowsKeyMap : Obligations.BlockDispatchFollowsKeyMap :=
  fun o u len s => ⟨decodeBlock_custom, decodeBlock_name, decodeBlock_id, decodeBlock_role, decodeBlock_ip,
    decodeBlock_other, (exec_decodeBlock o u len s).symm⟩

/-- Settles O33. -/
theorem otherBlockIsSkipped : Obligations.OtherBlockIsSkipped := by
  intro s o u len h
  have hother : exec (.blkOther o u len) s = .next s := rfl
  rw [decodeBlock_other h]
  exact ⟨hother, hother⟩

/-! ### A Device-Properties block reads its fields only

The length check of a kind reads no byte, and behind it only the bytes of the kind's fields are read (R91 to R93, R189);
a SameBytes on these is enough, where `blockCustom_sameBytes` and its companions ask for the whole block. -/

section Fields

variable {rx : Memory} {s : State} {len : Half}

theorem textOfBlock_sameFields (h : SameBytes rx s (s.blockStart + 6) (len.toNat - 2)) :
    textOfBlock { s with rx := rx } len = textOfBlock s len := by
  simp only [textOfBlock, blockStart_otherContent, rxBytes_sameBytes h]

theorem blockCustom_sameFields (h : SameBytes rx s (s.blockStart + 6) (len.toNat - 2)) :
    blockCustom len { s with rx := rx } = (fun t : State => { t with rx := rx }) <$> blockCustom len s := by
  rw [blockCustom, blockCustom, textOfBlock_sameFields h, map_bind]
  congr 1
  funext text
  cases text <;> rfl

theorem blockName_sameFields (h : SameBytes rx s (s.blockStart + 6) (len.toNat - 2)) :
    blockName len { s with rx := rx } = (fun t : State => { t with rx := rx }) <$> blockName len s := by
  rw [blockName, blockName, textOfBlock_sameFields h, map_bind]
  congr 1
  funext text
  cases text <;> rfl

theorem blockId_sameFields (h : SameBytes rx s (s.blockStart + 6) 4) :
    blockId len { s with rx := rx } = (fun t : State => { t with rx := rx }) <$> blockId len s := by
  unfold blockId
  split_ifs
  · simp only [blockStart_otherContent, rx16_sameBytes (h.part (s.blockStart + 6) 2 (by omega) (by omega)),
      rx16_sameBytes (h.part (s.blockStart + 8) 2 (by omega) (by omega)), map_bind, map_pure]
    rfl
  · rfl

theorem blockRole_sameFields (h : SameBytes rx s (s.blockStart + 6) 1) :
    blockRole len { s with rx := rx } = (fun t : State => { t with rx := rx }) <$> blockRole len s := by
  unfold blockRole
  split_ifs
  · simp only [blockStart_otherContent, rxByte_sameBytes h, map_bind, map_pure]
    rfl
  · rfl

end Fields

/-- A command whose work differs only in the content left in place ends with that difference alone. -/
theorem conclude_work_otherContent {s t : State} {rx : Memory} {work : State → Engine State}
    (hwork : work { s with rx := rx } = (fun t : State => { t with rx := rx }) <$> work s)
    (h : conclude s (work s) = .next t) :
    conclude { s with rx := rx } (work { s with rx := rx }) = .next { t with rx := rx } := by
  rw [hwork]
  exact conclude_otherContent rx h

/-- Settles O36: the bytes of each kind's fields lie from `b + 6` to the given end. -/
theorem devicePropertiesReadOnlyTheirFields : Obligations.DevicePropertiesReadOnlyTheirFields := by
  intro s t rx i last hkind hsame hexec
  have hfields : ∀ n, n ≤ last - 6 → SameBytes rx s (s.blockStart + 6) n := by
    intro n hn k hlo hhi
    have hk := hsame (k - s.blockStart) (by omega) (by omega)
    rwa [Nat.add_sub_cancel' (by omega)] at hk
  obtain ⟨len, rfl | rfl, rfl⟩ | ⟨len, rfl, rfl⟩ | ⟨len, rfl, rfl⟩ := hkind
  · exact conclude_work_otherContent (work := blockCustom len) (blockCustom_sameFields (hfields _ (by omega))) hexec
  · exact conclude_work_otherContent (work := blockName len) (blockName_sameFields (hfields _ (by omega))) hexec
  · exact conclude_work_otherContent (work := blockId len) (blockId_sameFields (hfields 4 (by omega))) hexec
  · exact conclude_work_otherContent (work := blockRole len) (blockRole_sameFields (hfields 1 (by omega))) hexec

end Sys2Proof.Machine

namespace Sys2Proof.Machine

/-! ### A frame and its tagged twin (R82, R97, R148)

Below the tag the two frames agree byte by byte; above it every byte of the twin lies 4 indices further (log entry 10).
So VALIDATE's checks give the same first reason, and the views differ in the payload offset only. -/

/-- `u` holds the untagged PROFINET frame of `s` with a 4-byte 802.1Q tag after byte 11, under the same settings. -/
structure TaggedTwin (s u : State) : Prop where
  lenEthernet : 14 ≤ s.rxLen.toNat
  lenTagged : u.rxLen.toNat = s.rxLen.toNat + 4
  ethertype : s.rxU16 12 = 0x8892#16
  tagEthertype : u.rxU16 12 = 0x8100#16
  innerEthertype : u.rxU16 16 = 0x8892#16
  below : ∀ i, i < 12 → u.rxAt i = s.rxAt i
  above : ∀ i, 14 ≤ i → i < s.rxLen.toNat → u.rxAt (i + 4) = s.rxAt i
  expMacEn : u.expMacEn = s.expMacEn
  expMac : u.expMac = s.expMac
  expFrameId : u.expFrameId = s.expFrameId

namespace TaggedTwin

variable {s u : State} (h : TaggedTwin s u)
include h

theorem untagged : s.tagged = false := by
  rw [State.tagged, h.ethertype]
  rfl

theorem tagged : u.tagged = true := by
  rw [State.tagged, h.tagEthertype]
  rfl

theorem profinetOffset_untagged : s.profinetOffset = 14 := by
  rw [State.profinetOffset, h.untagged]
  rfl

theorem profinetOffset_tagged : u.profinetOffset = 18 := by
  rw [State.profinetOffset, h.tagged]
  rfl

theorem innerEthertype_eq : u.innerEthertype = s.innerEthertype := by
  rw [State.innerEthertype, State.innerEthertype, h.tagged, h.untagged]
  exact h.innerEthertype.trans h.ethertype.symm

theorem rxU16_below {a : Nat} (ha : a + 2 ≤ 12) : u.rxU16 a = s.rxU16 a := by
  rw [State.rxU16, State.rxU16, h.below a (by omega), h.below (a + 1) (by omega)]

theorem rxU32_below {a : Nat} (ha : a + 4 ≤ 12) : u.rxU32 a = s.rxU32 a := by
  rw [State.rxU32, State.rxU32, h.rxU16_below (by omega), h.rxU16_below (by omega)]

theorem rxU16_above {a : Nat} (hlo : 14 ≤ a) (hhi : a + 2 ≤ s.rxLen.toNat) : u.rxU16 (a + 4) = s.rxU16 a := by
  have hnext := h.above (a + 1) (by omega) (by omega)
  rw [Nat.add_right_comm] at hnext
  rw [State.rxU16, State.rxU16, h.above a hlo (by omega), hnext]

theorem rxU32_above {a : Nat} (hlo : 14 ≤ a) (hhi : a + 4 ≤ s.rxLen.toNat) : u.rxU32 (a + 4) = s.rxU32 a := by
  have hnext := h.rxU16_above (a := a + 2) (by omega) (by omega)
  rw [Nat.add_right_comm] at hnext
  rw [State.rxU32, State.rxU32, h.rxU16_above hlo (by omega), hnext]

theorem rxString_above {a n : Nat} (hlo : 14 ≤ a) (hhi : a + n ≤ s.rxLen.toNat) :
    u.rxString (a + 4) n = s.rxString a n := by
  refine List.map_congr_left fun k hk => ?_
  have hbyte := h.above (a + k) (by omega) (by have := List.mem_range.mp hk; omega)
  rwa [Nat.add_right_comm] at hbyte

theorem destinationOk_eq : u.destinationOk = s.destinationOk := by
  have hdst : u.rxMac 0 = s.rxMac 0 := by
    rw [State.rxMac, State.rxMac, h.rxU16_below (by omega), h.rxU32_below (by omega)]
  simp only [State.destinationOk, h.expMacEn, h.expMac, hdst]

theorem frameIdField_eq (hlen : 16 ≤ s.rxLen.toNat) : u.frameIdField = s.frameIdField := by
  rw [State.frameIdField, State.frameIdField, h.profinetOffset_untagged, h.profinetOffset_tagged]
  exact h.rxU16_above le_rfl hlen

theorem dlenField_eq (hlen : 26 ≤ s.rxLen.toNat) : u.dlenField = s.dlenField := by
  rw [State.dlenField, State.dlenField, h.profinetOffset_untagged, h.profinetOffset_tagged]
  exact h.rxU16_above (a := 24) (by omega) (by omega)

/-- The checks of R214 one after the other: each compares the same bytes and the same number of bytes left. -/
theorem validateReason_eq : validateReason u = validateReason s := by
  have hEth := h.lenEthernet
  have hlen := h.lenTagged
  have hnoVlan : ¬(s.tagged = true ∧ s.rxLen.toNat < 18) := by simp [h.untagged]
  unfold validateReason
  rw [h.destinationOk_eq, h.innerEthertype_eq, h.expFrameId, h.profinetOffset_untagged, h.profinetOffset_tagged]
  refine ite_congr (propext (by omega)) (fun _ => rfl) fun _ => ?_
  refine ite_congr rfl (fun _ => rfl) fun _ => ?_
  refine ite_congr (propext (iff_of_false (by omega) hnoVlan)) (fun _ => rfl) fun _ => ?_
  refine ite_congr rfl (fun _ => rfl) fun _ => ?_
  refine ite_congr (propext (by omega)) (fun _ => rfl) fun hPn => ?_
  rw [h.frameIdField_eq (by omega)]
  refine ite_congr rfl (fun _ => rfl) fun _ => ?_
  refine ite_congr (propext (by omega)) (fun _ => rfl) fun hDcp => ?_
  rw [h.dlenField_eq (by omega)]
  exact ite_congr (propext (by omega)) (fun _ => rfl) fun _ => rfl

/-- Where the frame reaches to the end of its DCP header, the views differ in VIEW_POFF only. -/
theorem frameView_eq (hlen : 26 ≤ s.rxLen.toNat) : u.frameView = { s.frameView with poff := 30#16 } := by
  have hid := h.above 16 (by omega) (by omega)
  have htype := h.above 17 (by omega) (by omega)
  have hxid := h.rxU32_above (a := 18) (by omega) (by omega)
  have hdelay := h.rxU16_above (a := 22) (by omega) (by omega)
  simp only [State.frameView, h.profinetOffset_untagged, h.profinetOffset_tagged, h.tagged, hid, htype, hxid, hdelay,
    h.dlenField_eq hlen, h.frameIdField_eq (by omega), h.rxU16_below (a := 6) (by omega),
    h.rxU32_below (a := 8) (by omega), if_true]

end TaggedTwin

/-- An accepted frame reaches to the end of its DCP header. -/
theorem profinetOffset_le_of_accepted {s : State} (h : validateReason s = .ok) : s.profinetOffset + 12 ≤ s.rxLen.toNat := by
  have := frameView_fits h
  rw [frameView_poff] at this
  omega

/-- Settles O19. -/
theorem vlanTransparency : Obligations.VlanTransparency := by
  intro s u hlen hlenTagged het htag hinner hbelow habove hen hmac hfid
  have twin : TaggedTwin s u := ⟨hlen, hlenTagged, het, htag, hinner, hbelow, habove, hen, hmac, hfid⟩
  by_cases hok : validateReason s = .ok
  · have hheaders := profinetOffset_le_of_accepted hok
    rw [twin.profinetOffset_untagged] at hheaders
    have hpoff : s.frameView.poff = 26#16 := by simp only [State.frameView, twin.untagged]; rfl
    have hfits := frameView_fits hok
    rw [hpoff] at hfits
    refine ⟨_, _, exec_validate_accepted hok, exec_validate_accepted (twin.validateReason_eq.trans hok), rfl,
      fun _ => ⟨hpoff, twin.untagged, twin.frameView_eq hheaders, twin.tagged, ?_⟩⟩
    simp only [State.payload, State.acceptView_view, twin.frameView_eq hheaders, hpoff]
    exact twin.rxString_above (a := 26) (by omega) hfits
  · have hreject : validateReason u ≠ .ok := twin.validateReason_eq ▸ hok
    refine ⟨_, _, exec_validate_rejected hok, exec_validate_rejected hreject, ?_, fun hresult => absurd hresult hok⟩
    simp only [State.setResult_result, twin.validateReason_eq]

end Sys2Proof.Machine

namespace Sys2Proof.Machine

/-! ### The encoders write one byte string (R100, R101, R131, R132)

Each field starts where the one before it ended, so an encoder's writes are one write of its frame at TX[0]. -/

/-- A write that goes on where another ended is one write of both byte strings. -/
theorem Memory.writeBytes_append (m : Memory) (a : Nat) (xs ys : List Byte) :
    m.writeBytes a (xs ++ ys) = (m.writeBytes a xs).writeBytes (a + xs.length) ys := by
  induction xs generalizing m a with
  | nil => rfl
  | cons x xs ih =>
    rw [List.cons_append, Memory.writeBytes, Memory.writeBytes, ih, List.length_cons, Nat.add_right_comm, Nat.add_assoc]

theorem Memory.writeBytes_idem {m : Memory} (h : m.wf) (a : Nat) (bs : List Byte) :
    (m.writeBytes a bs).writeBytes a bs = m.writeBytes a bs := by
  have hwf := Memory.writeBytes_wf h a bs
  refine Memory.ext_read (Memory.writeBytes_wf hwf a bs) hwf fun i => ?_
  simp only [Memory.read_writeBytes]
  split_ifs <;> rfl

/-- The 26 header bytes of an untagged request, field after field (R96). -/
def requestHeaderBytes (dst src : Mac) (frameId : Half) (serviceId : Byte) (xid : Word) (delay dlen : Half) :
    List Byte :=
  bytesBE 6 dst ++ bytesBE 6 src ++ bytesBE 2 ethertypeProfinet ++ bytesBE 2 frameId ++ bytesBE 1 serviceId ++
  bytesBE 1 (0#8) ++ bytesBE 4 xid ++ bytesBE 2 delay ++ bytesBE 2 dlen

theorem requestHeaderBytes_length (dst src : Mac) (frameId : Half) (serviceId : Byte) (xid : Word) (delay dlen : Half) :
    (requestHeaderBytes dst src frameId serviceId xid delay dlen).length = 26 := rfl

theorem writeRequestHeaders_eq (m : Memory) (dst src : Mac) (frameId : Half) (serviceId : Byte) (xid : Word)
    (delay dlen : Half) :
    writeRequestHeaders m dst src frameId serviceId xid delay dlen =
      m.writeBytes 0 (requestHeaderBytes dst src frameId serviceId xid delay dlen) := by
  simp only [writeRequestHeaders, memWrite, requestHeaderBytes, Memory.writeBytes_append, List.length_append,
    bytesBE_length, Nat.reduceAdd]

theorem writeBlockHeader_eq (m : Memory) (a : Nat) (option suboption : Byte) (len : Half) :
    writeBlockHeader m a option suboption len = m.writeBytes a (option :: suboption :: bytesBE 2 len) := by
  simp only [writeBlockHeader, memWrite, bytesBE_byte]
  rfl

theorem dcpMulticast_bytes : bytesBE 6 dcpMulticast = [0x01#8, 0x0E#8, 0xCF#8, 0x00#8, 0x00#8, 0x00#8] := by decide

theorem identifyFrame_eq (src : MacPair) (xid : Word) :
    identifyFrame src xid =
      requestHeaderBytes dcpMulticast src.value frameIdIdentifyRequest 5#8 xid 128#16 4#16 ++
      0xFF#8 :: 0xFF#8 :: bytesBE 2 0#16 := by
  simp [identifyFrame, requestHeaderBytes, dcpMulticast_bytes, bytesBE_mac, bytesBE_word, bytesBE_half, bytesBE_byte,
    ethertypeProfinet, frameIdIdentifyRequest]

theorem flashledFrame_eq (dst src : MacPair) (xid : Word) :
    flashledFrame dst src xid =
      requestHeaderBytes dst.value src.value frameIdGetSet 4#8 xid 0#16 8#16 ++
      (5#8 :: 3#8 :: bytesBE 2 4#16) ++ bytesBE 2 0x0000#16 ++ bytesBE 2 0x0100#16 := by
  simp [flashledFrame, requestHeaderBytes, bytesBE_mac, bytesBE_word, bytesBE_half, bytesBE_byte, ethertypeProfinet,
    frameIdGetSet]

theorem identifyFrame_length (src : MacPair) (xid : Word) : (identifyFrame src xid).length = 30 := rfl
theorem flashledFrame_length (dst src : MacPair) (xid : Word) : (flashledFrame dst src xid).length = 34 := rfl

/-- ENC_IDENTIFY's TXBUF: the frame of R100 written at index 0. -/
theorem identifyRequest_eq (s : State) :
    s.identifyRequest = s.tx.writeBytes 0 (identifyFrame s.srcMac Config.xidIdentify) := by
  rw [State.identifyRequest, writeRequestHeaders_eq, writeBlockHeader_eq, identifyFrame_eq, Memory.writeBytes_append,
    requestHeaderBytes_length]

/-- ENC_FLASHLED's TXBUF: the frame of R101 written at index 0. -/
theorem flashledRequest_eq (s : State) :
    s.flashledRequest = s.tx.writeBytes 0 (flashledFrame s.dstMac s.srcMac Config.xidFlashled) := by
  rw [State.flashledRequest, writeRequestHeaders_eq, writeBlockHeader_eq, flashledFrame_eq]
  simp only [memWrite, Memory.writeBytes_append, List.length_append, List.length_cons, requestHeaderBytes_length,
    bytesBE_length, Nat.reduceAdd]

theorem Memory.read_writeBytes_zero (m : Memory) (bs : List Byte) (i : Nat) :
    (m.writeBytes 0 bs).read i = if i < bs.length then bs[i]? else m.read i := by
  simp [Memory.read_writeBytes]

theorem identifyRequest_read (s : State) (i : Nat) :
    s.identifyRequest.read i = if i < 30 then (identifyFrame s.srcMac Config.xidIdentify)[i]? else s.tx.read i := by
  rw [identifyRequest_eq, Memory.read_writeBytes_zero, identifyFrame_length]

theorem flashledRequest_read (s : State) (i : Nat) :
    s.flashledRequest.read i =
      if i < 34 then (flashledFrame s.dstMac s.srcMac Config.xidFlashled)[i]? else s.tx.read i := by
  rw [flashledRequest_eq, Memory.read_writeBytes_zero, flashledFrame_length]

/-- Settles O11. -/
theorem encIdentifyWritesFrame : Obligations.EncIdentifyWritesFrame :=
  ⟨rfl, fun s =>
    ⟨_, exec_encIdentify s, fun i => by rw [State.finishFrame_tx, identifyRequest_read], finishFrame_frame s _ _⟩⟩

/-- Settles O12. -/
theorem encFlashledWritesFrame : Obligations.EncFlashledWritesFrame :=
  ⟨rfl, fun s =>
    ⟨_, exec_encFlashled s, fun i => by rw [State.finishFrame_tx, flashledRequest_read], finishFrame_frame s _ _⟩⟩

/-- Finishing the same frame a second time changes nothing. -/
theorem finishFrame_finishFrame (s : State) (tx : Memory) (length : Half) :
    (s.finishFrame tx length).finishFrame tx length = s.finishFrame tx length := rfl

theorem identifyRequest_finishFrame {s : State} (h : s.tx.wf) (length : Half) :
    (s.finishFrame s.identifyRequest length).identifyRequest = s.identifyRequest := by
  simp only [identifyRequest_eq, State.finishFrame_tx, State.finishFrame_srcMac, Memory.writeBytes_idem h]

theorem flashledRequest_finishFrame {s : State} (h : s.tx.wf) (length : Half) :
    (s.finishFrame s.flashledRequest length).flashledRequest = s.flashledRequest := by
  simp only [flashledRequest_eq, State.finishFrame_tx, State.finishFrame_srcMac, State.finishFrame_dstMac,
    Memory.writeBytes_idem h]

/-- Settles O13: the encoders read the MAC registers only, which they do not write, so the second issue writes the bytes
that already stand in TXBUF. -/
theorem encodersAreIdempotent : Obligations.EncodersAreIdempotent := by
  rintro s t i hwf (rfl | rfl) h
  · obtain rfl := Host.Outcome.next.inj ((exec_encIdentify s).symm.trans h)
    rw [exec_encIdentify, identifyRequest_finishFrame hwf, finishFrame_finishFrame]
  · obtain rfl := Host.Outcome.next.inj ((exec_encFlashled s).symm.trans h)
    rw [exec_encFlashled, flashledRequest_finishFrame hwf, finishFrame_finishFrame]

/-! ### VALIDATE on the Identify request

The received bytes are the frame of R100, so every field VALIDATE reads is a field of that frame at its offset (R96). -/

theorem rxU16_eq_u16At (s : State) {n a : Nat} (h : a + 2 ≤ n) : s.rxU16 a = u16At (s.rxString 0 n) a := by
  rw [u16At, rxString_getD s (by omega), rxString_getD s (by omega), Nat.zero_add, Nat.zero_add, State.rxU16]

theorem rxU32_eq_u32At (s : State) {n a : Nat} (h : a + 4 ≤ n) : s.rxU32 a = u32At (s.rxString 0 n) a := by
  rw [u32At, ← rxU16_eq_u16At s (by omega), ← rxU16_eq_u16At s (by omega), State.rxU32]

/-- Where every byte of a frame was written, the engine reads that frame. -/
theorem rxString_eq_of_read {s : State} {frame : List Byte}
    (h : ∀ i, i < frame.length → s.rx.read i = frame[i]?) : s.rxString 0 frame.length = frame := by
  refine List.ext_getElem (by simp) fun i _ hi => ?_
  simp [State.rxString, State.rxAt, h i hi, hi]

/-- The four bytes of a u32 put together again. -/
theorem word_of_bytes (v : Word) :
    ((v.extractLsb' 24 8 ++ v.extractLsb' 16 8 : Half) ++ (v.extractLsb' 8 8 ++ v.extractLsb' 0 8 : Half) : Word) = v := by
  ext i hi
  simp only [BitVec.getElem_append, BitVec.getElem_extractLsb']
  split_ifs <;> grind

section IdentifyRequest

variable {u : State} {src : MacPair} {xid : Word} (hframe : u.rxString 0 30 = identifyFrame src xid)
include hframe

theorem identifyFrame_rxU16 {a : Nat} (ha : a + 2 ≤ 30) : u.rxU16 a = u16At (identifyFrame src xid) a := by
  rw [rxU16_eq_u16At u ha, hframe]

theorem identifyFrame_rxU32 {a : Nat} (ha : a + 4 ≤ 30) : u.rxU32 a = u32At (identifyFrame src xid) a := by
  rw [rxU32_eq_u32At u ha, hframe]

theorem identifyFrame_rxAt {i : Nat} (hi : i < 30) : u.rxAt i = (identifyFrame src xid).getD i 0#8 := by
  rw [← hframe, rxString_getD u hi, Nat.zero_add]

theorem identifyFrame_ethertype : u.rxU16 12 = 0x8892#16 :=
  (identifyFrame_rxU16 hframe (a := 12) (by omega)).trans (show 0x88#8 ++ 0x92#8 = 0x8892#16 by decide)

theorem identifyFrame_untagged : u.tagged = false := by
  rw [State.tagged, identifyFrame_ethertype hframe]
  rfl

theorem identifyFrame_profinetOffset : u.profinetOffset = 14 := by
  rw [State.profinetOffset, identifyFrame_untagged hframe]
  rfl

theorem identifyFrame_frameIdField : u.frameIdField = 0xFEFE#16 := by
  rw [State.frameIdField, identifyFrame_profinetOffset hframe]
  exact (identifyFrame_rxU16 hframe (a := 14) (by omega)).trans (show 0xFE#8 ++ 0xFE#8 = 0xFEFE#16 by decide)

theorem identifyFrame_dlenField : u.dlenField = 4#16 := by
  rw [State.dlenField, identifyFrame_profinetOffset hframe]
  exact (identifyFrame_rxU16 hframe (a := 24) (by omega)).trans (show 0x00#8 ++ 0x04#8 = 4#16 by decide)

/-- The destination is the DCP Identify multicast, which R143 accepts whatever EXP_MAC holds. -/
theorem identifyFrame_destinationOk : u.destinationOk = true := by
  have hdst : u.rxMac 0 = dcpMulticast := by
    rw [State.rxMac, identifyFrame_rxU16 hframe (by omega), identifyFrame_rxU32 hframe (by omega)]
    show (0x01#8 ++ 0x0E#8) ++ ((0xCF#8 ++ 0x00#8) ++ (0x00#8 ++ 0x00#8)) = dcpMulticast
    decide
  exact (destinationOk_iff u).mpr fun _ => .inr (.inr hdst)

/-- The request passes every check of R214, each by the field it reads. -/
theorem identifyFrame_accepted (hlen : u.rxLen = 30#16) (hfid : u.expFrameId = 0xFEFE#16) : validateReason u = .ok := by
  simp [validateReason, State.innerEthertype, hlen, hfid, identifyFrame_destinationOk hframe,
    identifyFrame_untagged hframe, identifyFrame_ethertype hframe, identifyFrame_profinetOffset hframe,
    identifyFrame_frameIdField hframe, identifyFrame_dlenField hframe]

theorem identifyFrame_view :
    u.frameView =
      { svc := 0x0005#16, xid := xid, delay := 128#16, dlen := 4#16, poff := 26#16, frameId := 0xFEFE#16,
        srcMac := src } := by
  have hid : u.rxAt 16 = 0x05#8 := identifyFrame_rxAt hframe (by omega)
  have htype : u.rxAt 17 = 0x00#8 := identifyFrame_rxAt hframe (by omega)
  have hxid : u.rxU32 18 = xid := (identifyFrame_rxU32 hframe (a := 18) (by omega)).trans (word_of_bytes xid)
  have hdelay : u.rxU16 22 = 128#16 :=
    (identifyFrame_rxU16 hframe (a := 22) (by omega)).trans (show 0x00#8 ++ 0x80#8 = 128#16 by decide)
  have hhi : u.rxU16 6 = src.hi := (identifyFrame_rxU16 hframe (a := 6) (by omega)).trans (half_of_bytes src.hi)
  have hlo : u.rxU32 8 = src.lo := (identifyFrame_rxU32 hframe (a := 8) (by omega)).trans (word_of_bytes src.lo)
  simp only [State.frameView, identifyFrame_profinetOffset hframe, identifyFrame_untagged hframe, hid, htype, hxid,
    hdelay, hhi, hlo, identifyFrame_frameIdField hframe, identifyFrame_dlenField hframe]
  rfl

end IdentifyRequest

/-- Settles O15: the received bytes are ENC_IDENTIFY's frame, which passes every check. -/
theorem identifyRequestValidates : Obligations.IdentifyRequestValidates := by
  intro s t u h hread hlen _ _ hfid
  obtain rfl := Host.Outcome.next.inj ((exec_encIdentify s).symm.trans h)
  have hframe : u.rxString 0 30 = identifyFrame s.srcMac Config.xidIdentify :=
    rxString_eq_of_read (frame := identifyFrame s.srcMac Config.xidIdentify) fun i (hi : i < 30) => by
      rw [hread i hi, State.finishFrame_tx, identifyRequest_read, if_pos hi]
  rw [exec_validate_accepted (identifyFrame_accepted hframe hlen hfid), identifyFrame_view hframe,
    identifyFrame_untagged hframe]
  rfl

end Sys2Proof.Machine

namespace Sys2Proof.Machine

/-! ### VALIDATE's reason and the content and length it depends on (R143, R147, R150, R214) -/

/-- Settles O16: the checks run on the cleared view (R141), so a rejection only adds its reason. -/
theorem rejectedValidateReportsFirstReason : Obligations.RejectedValidateReportsFirstReason :=
  fun _ h => exec_validate_rejected h

/-- RESULT after VALIDATE is the reason of R214's order, OK where no check fails. -/
theorem exec_validate_result {s t : State} (h : exec .validate s = .next t) : t.result = validateReason s := by
  obtain ⟨_, rfl⟩ | ⟨hok, rfl⟩ := exec_validate_cases h
  · rfl
  · exact hok.symm

/-- Behind the length check of R142 the destination check comes first, and no later check reports its code. -/
theorem validateReason_eq_addrMismatch_iff {s : State} (h : 14 ≤ s.rxLen.toNat) :
    validateReason s = .addrMismatch ↔ s.destinationOk = false := by
  unfold validateReason
  rw [if_neg (by omega)]
  by_cases hdst : s.destinationOk = false
  · rw [if_pos hdst]
    exact iff_of_true rfl hdst
  · rw [if_neg hdst]
    refine iff_of_false ?_ hdst
    split_ifs <;> decide

theorem destinationOk_eq_false_iff (s : State) :
    s.destinationOk = false ↔ s.expMacEn = true ∧ ¬acceptedDestination s (s.rxMac 0) := by
  rw [← Bool.not_eq_true, destinationOk_iff, Classical.not_imp]

/-- Settles O18. -/
theorem destinationCheck : Obligations.DestinationCheck := by
  intro s hlen
  obtain ⟨t, ht⟩ := exec_validate_completes s
  refine ⟨t, ht, ?_⟩
  rw [exec_validate_result ht, validateReason_eq_addrMismatch_iff hlen, destinationOk_eq_false_iff,
    acceptedDestination, not_or, not_or]
  rfl

/-- A frame passes every check exactly when its fields are the wanted ones and its declared payload lies below RX_LEN: the
earlier length checks ask for less. -/
theorem validateReason_eq_ok_iff (s : State) :
    validateReason s = .ok ↔
      s.destinationOk = true ∧ s.innerEthertype = 0x8892#16 ∧
      ¬(s.expFrameId ≠ 0#16 ∧ s.frameIdField ≠ s.expFrameId) ∧
      s.frameView.poff.toNat + s.frameView.dlen.toNat ≤ s.rxLen.toNat := by
  constructor
  · intro h
    have hfits := frameView_fits h
    unfold validateReason at h
    obtain ⟨_, h⟩ := ite_reason_eq_ok (by decide) h
    obtain ⟨hdst, h⟩ := ite_reason_eq_ok (by decide) h
    obtain ⟨_, h⟩ := ite_reason_eq_ok (by decide) h
    obtain ⟨het, h⟩ := ite_reason_eq_ok (by decide) h
    obtain ⟨_, h⟩ := ite_reason_eq_ok (by decide) h
    obtain ⟨hfid, _⟩ := ite_reason_eq_ok (by decide) h
    exact ⟨eq_true_of_ne_false hdst, not_not.mp het, hfid, hfits⟩
  · rintro ⟨hdst, het, hfid, hfits⟩
    have hdlen : s.frameView.dlen = s.dlenField := rfl
    rw [frameView_poff, hdlen] at hfits
    have hstart : 14 ≤ s.profinetOffset ∧ (s.tagged = true → s.profinetOffset = 18) := by
      unfold State.profinetOffset
      split_ifs with htag <;> simp [htag]
    obtain ⟨hstart, htagged⟩ := hstart
    unfold validateReason
    rw [if_neg (by omega), if_neg (ne_false_of_eq_true hdst), if_neg fun h => by have := htagged h.1; omega,
      if_neg (not_not.mpr het), if_neg (by omega), if_neg hfid, if_neg (by omega), if_neg (by omega)]

/-- What VALIDATE makes of an accepted frame it makes under every RX_LEN that reaches the end of the declared payload: the
fields lie at fixed offsets, and only the fit of the payload is compared with RX_LEN. -/
theorem exec_validate_otherLength {s t : State} {n : Half} (h : exec .validate s = .next t) (hok : t.result = .ok)
    (hn : t.view.poff.toNat + t.view.dlen.toNat ≤ n.toNat) :
    exec .validate { s with rxLen := n } = .next { t with rxLen := n } := by
  obtain ⟨hreject, rfl⟩ | ⟨haccept, rfl⟩ := exec_validate_cases h
  · exact absurd hok hreject
  · obtain ⟨hdst, het, hfid, _⟩ := (validateReason_eq_ok_iff s).mp haccept
    exact exec_validate_accepted ((validateReason_eq_ok_iff { s with rxLen := n }).mpr ⟨hdst, het, hfid, hn⟩)

/-- Settles O20: RX_LEN is first cut down to the end of the declared payload. There the other content only differs at or
above RX_LEN, where VALIDATE reads nothing (O21), and RX_LEN is then raised to its other value. -/
theorem trailingBytesDoNotMatter : Obligations.TrailingBytesDoNotMatter := by
  intro s rx n hok hn hsame
  obtain ⟨stop, hstop⟩ : ∃ stop : Half, stop.toNat = s.frameView.poff.toNat + s.frameView.dlen.toNat :=
    ⟨.ofNatLT _ (hn.trans_lt n.isLt), rfl⟩
  have haccept := exec_validate_accepted hok
  refine ⟨_, haccept, rfl, ?_⟩
  have hcut := exec_validate_otherLength haccept rfl hstop.ge
  obtain ⟨t, ht, hcontent⟩ := validateReadsBelowRxLen { s with rxLen := stop }
  obtain rfl := Host.Outcome.next.inj (hcut.symm.trans ht)
  have hother := hcontent rx fun i hi => hsame i (hstop ▸ hi)
  exact exec_validate_otherLength hother rfl hn

end Sys2Proof.Machine

namespace Sys2Proof.Machine

/-! ### The block kinds one by one (R180 to R185) -/

/-- A block kind's answer is its work's own next state. -/
theorem conclude_eq_next {s t : State} {e : Engine State} (h : e = .ok t) : conclude s e = .next t := by
  rw [h, conclude_ok]

/-- The text made of received bytes (R180): those bytes, then 0. -/
theorem ofBytes_rxString_byte (s : State) (a n : Nat) (k : Fin 63) :
    (TextField.ofBytes (s.rxString a n)).bytes[k] = if k.val < n then s.rxAt (a + k.val) else 0#8 := by
  rw [TextField.ofBytes_byte]
  split_ifs with hk
  · exact rxString_getD s hk
  · exact List.getD_eq_default _ _ (by rw [State.rxString_length]; omega)

theorem ofBytes_rxString_len (s : State) (a : Nat) {n : Nat} (h : n ≤ 63) :
    (TextField.ofBytes (s.rxString a n)).len.toNat = n := by
  rw [TextField.ofBytes_len (by rwa [State.rxString_length]), State.rxString_length]

/-- Settles O28. -/
theorem customBlockSetsVendorValue : Obligations.CustomBlockSetsVendorValue := by
  intro s len
  refine ⟨decodeBlock_custom rfl, fun hlo hhi hb => ?set, fun hl => ?skip⟩
  case set =>
    exact ⟨_, conclude_eq_next (blockCustom_ok ⟨hlo, hhi⟩ hb), rfl, ofBytes_rxString_len s _ (by omega),
      ofBytes_rxString_byte s _ _⟩
  case skip => exact conclude_eq_next (blockCustom_skip (by omega))

/-- Settles O29. -/
theorem nameBlockSetsStationName : Obligations.NameBlockSetsStationName := by
  intro s len
  refine ⟨decodeBlock_name rfl, fun hlo hhi hb => ?set, fun hl => ?skip⟩
  case set =>
    exact ⟨_, conclude_eq_next (blockName_ok ⟨hlo, hhi⟩ hb), rfl, ofBytes_rxString_len s _ (by omega),
      ofBytes_rxString_byte s _ _⟩
  case skip => exact conclude_eq_next (blockName_skip (by omega))

/-- Settles O30. -/
theorem idBlockSetsIds : Obligations.IdBlockSetsIds := fun _ _ =>
  ⟨decodeBlock_id rfl, fun hl hb => conclude_eq_next (blockId_ok hl hb),
    fun hl => conclude_eq_next (blockId_skip (by omega))⟩

/-- Settles O31. -/
theorem roleBlockSetsRole : Obligations.RoleBlockSetsRole := fun _ _ =>
  ⟨decodeBlock_role rfl, fun hl hb => conclude_eq_next (blockRole_ok hl hb),
    fun hl => conclude_eq_next (blockRole_skip (by omega))⟩

/-- Settles O32. -/
theorem ipBlockSetsIpParameters : Obligations.IpBlockSetsIpParameters := fun _ _ =>
  ⟨decodeBlock_ip rfl, fun hl hb => conclude_eq_next (blockIp_ok hl hb),
    fun hl => conclude_eq_next (blockIp_skip (by omega))⟩

/-- Settles O23. -/
theorem parseWithoutViewIsNoView : Obligations.ParseWithoutViewIsNoView :=
  ⟨rfl, fun _ hv => exec_parse_noView hv⟩

/-! ### One turn of PARSE's loop (R173 to R178) -/

/-- With at most four payload bytes left no header is read, whatever the fuel (R173). -/
theorem parseLoop_exhausted (fuel : Nat) {s : State} (h : s.remaining ≤ 4) :
    parseLoop fuel s = .ok { s with parseOverrun := false } := by
  cases fuel with
  | zero => rfl
  | succ fuel => exact if_pos h

/-- `parseLoop_turn` with the header alone below RX_LEN, wherever the rest of the payload lies. -/
theorem parseLoop_turn_of_header {s : State} (fuel : Nat) (hrem : 4 < s.remaining)
    (hhead : s.blockStart + 4 ≤ s.rxLen.toNat) :
    parseLoop (fuel + 1) s =
      if s.remaining < blockSize (s.rxU16 (s.blockStart + 2)) then .ok { s with parseOverrun := true }
      else dispatchBlock (s.rxAt s.blockStart) (s.rxAt (s.blockStart + 1)) (s.rxU16 (s.blockStart + 2)) s >>=
        fun t => parseLoop fuel (t.advance (blockSize (s.rxU16 (s.blockStart + 2)))) := by
  rw [parseLoop, if_neg (by omega), readBlockHeader_ok hhead, engine_ok]

/-- A turn whose block fits and is answered goes on behind the block (R176, R177). -/
theorem parseLoop_dispatched {s t : State} (fuel : Nat) (hrem : 4 < s.remaining)
    (hhead : s.blockStart + 4 ≤ s.rxLen.toNat) (hblock : blockSize (s.rxU16 (s.blockStart + 2)) ≤ s.remaining)
    (ht : dispatchBlock (s.rxAt s.blockStart) (s.rxAt (s.blockStart + 1)) (s.rxU16 (s.blockStart + 2)) s = .ok t) :
    parseLoop (fuel + 1) s = parseLoop fuel (t.advance (blockSize (s.rxU16 (s.blockStart + 2)))) := by
  rw [parseLoop_turn_of_header fuel hrem hhead, if_neg (by omega), ht, engine_ok]

/-- Work that is never rejected answers only where it is done. -/
theorem ok_of_conclude_next {s t : State} {e : Engine State} (hn : NoReject e) (h : conclude s e = .next t) :
    e = .ok t := by
  obtain hok | ⟨code, hreject, -⟩ := conclude_next h
  · exact hok
  · exact absurd hreject (hn code)

theorem conclude_eq_fault {s : State} {e : Engine State} {f : Fault} (h : conclude s e = .fault f) :
    e = .error (.fault f) := by
  rcases e with (code | g) | t
  · cases h
  · rw [Host.Outcome.fault.inj h]
  · cases h

/-- A decoded block answers exactly what PARSE's dispatch answers: no block is rejected. -/
theorem exec_decodeBlock_eq_next {o u : Byte} {len : Half} {s t : State} :
    exec (decodeBlock o u len) s = .next t ↔ dispatchBlock o u len s = .ok t := by
  rw [exec_decodeBlock]
  exact ⟨ok_of_conclude_next (noReject_dispatchBlock o u len s), conclude_eq_next⟩

/-- The instruction the four bytes at an index decode to (R87, R98). -/
theorem decodeBlockHeader_rxString (s : State) (a : Nat) :
    decodeBlockHeader (s.rxString a 4) = .ok (decodeBlock (s.rxAt a) (s.rxAt (a + 1)) (s.rxU16 (a + 2)), []) := rfl

/-- Settles O7. -/
theorem parseLoopRunsDecodedBlock : Obligations.ParseLoopRunsDecodedBlock := by
  intro s fuel
  refine ⟨parseLoop_exhausted fuel, ?_⟩
  intro i need hrem hhead hdecode hneed
  obtain rfl : decodeBlock _ _ _ = i := by
    simpa only [decodeBlockHeader_rxString, Except.ok.injEq, Prod.mk.injEq, and_true] using hdecode
  obtain rfl : need = blockSize (s.rxU16 (s.blockStart + 2)) := hneed
  refine ⟨fun hover => ?_, fun hfits => ⟨fun t ht => ?_, fun f hf => ?_⟩⟩
  · rw [parseLoop_turn_of_header fuel hrem hhead, if_pos hover]
  · exact parseLoop_dispatched fuel hrem hhead hfits (exec_decodeBlock_eq_next.mp ht)
  · rw [exec_decodeBlock] at hf
    rw [parseLoop_turn_of_header fuel hrem hhead, if_neg (by omega), conclude_eq_fault hf, engine_error]

end Sys2Proof.Machine

namespace Sys2Proof.Machine

/-! ### What PARSE's loop can answer

Every claim about the end of the loop follows its turns: the payload is exhausted, the block does not fit, or the block
is dispatched and the loop goes on behind it (R173 to R178). -/

theorem rxByte_inside {s : State} {i : Nat} {b : Byte} (h : rxByte s i = .ok b) : i < s.rxLen.toNat := by
  unfold rxByte at h
  split_ifs at h with hi
  exact hi

/-- A header that was read lies below RX_LEN. -/
theorem header_below_rxLen {s : State} {header : Byte × Byte × Half} (h : readBlockHeader s = .ok header) :
    s.blockStart + 4 ≤ s.rxLen.toNat := by
  obtain ⟨_, -, h⟩ := engine_bind_ok h
  obtain ⟨_, -, h⟩ := engine_bind_ok h
  obtain ⟨_, hlen, -⟩ := engine_bind_ok h
  obtain ⟨_, -, hlen⟩ := engine_bind_ok hlen
  obtain ⟨_, hlast, -⟩ := engine_bind_ok hlen
  exact rxByte_inside hlast

@[simp] theorem remaining_setDesc_advance (s : State) (d : Descriptor) (n : Nat) :
    ((s.setDesc d).advance n).remaining = s.remaining - n := (Nat.sub_sub _ _ _).symm

@[simp] theorem blockStart_setDesc_advance (s : State) (d : Descriptor) (n : Nat) :
    ((s.setDesc d).advance n).blockStart = s.blockStart + n := (Nat.add_assoc _ _ _).symm

/-- What one turn of the loop can be. -/
theorem parseLoop_cases {fuel : Nat} {s t : State} (h : parseLoop (fuel + 1) s = .ok t) :
    (s.remaining ≤ 4 ∧ t = { s with parseOverrun := false }) ∨
    (4 < s.remaining ∧ s.blockStart + 4 ≤ s.rxLen.toNat ∧ s.remaining < blockSize (s.rxU16 (s.blockStart + 2)) ∧
      t = { s with parseOverrun := true }) ∨
    (4 < s.remaining ∧ s.blockStart + 4 ≤ s.rxLen.toNat ∧ blockSize (s.rxU16 (s.blockStart + 2)) ≤ s.remaining ∧
      ∃ d, dispatchBlock (s.rxAt s.blockStart) (s.rxAt (s.blockStart + 1)) (s.rxU16 (s.blockStart + 2)) s
          = .ok (s.setDesc d) ∧
        parseLoop fuel ((s.setDesc d).advance (blockSize (s.rxU16 (s.blockStart + 2)))) = .ok t) := by
  by_cases hrem : s.remaining ≤ 4
  · rw [parseLoop_exhausted _ hrem] at h
    exact .inl ⟨hrem, (Except.ok.inj h).symm⟩
  have hrem : 4 < s.remaining := by omega
  have hhead : s.blockStart + 4 ≤ s.rxLen.toNat := by
    rw [parseLoop, if_neg (by omega)] at h
    obtain ⟨_, hread, -⟩ := engine_bind_ok h
    exact header_below_rxLen hread
  rw [parseLoop_turn_of_header fuel hrem hhead] at h
  split_ifs at h with hover
  · exact .inr (.inl ⟨hrem, hhead, hover, (Except.ok.inj h).symm⟩)
  · obtain ⟨v, hv, h⟩ := engine_bind_ok h
    obtain ⟨d, rfl⟩ : ∃ d, v = s.setDesc d := ⟨_, dispatchBlock_frame hv⟩
    exact .inr (.inr ⟨hrem, hhead, by omega, d, hv, h⟩)

/-! ### How PARSE's loop ends

A turn that goes on uses up at least four payload bytes, so `4 * fuel + 4` remaining bytes never use up the fuel. -/

theorem blockSize_ge (len : Half) : 4 ≤ blockSize len := by
  unfold blockSize
  omega

/-- The two ends of the loop (R173, R175). -/
theorem parseLoop_end {fuel : Nat} {s t : State} (hcursor : s.cursor ≤ s.view.dlen.toNat)
    (hfuel : s.remaining ≤ 4 * fuel + 4) (h : parseLoop fuel s = .ok t) :
    t.cursor ≤ t.view.dlen.toNat ∧ (t.parseOverrun = false → t.remaining ≤ 4) ∧
      (t.parseOverrun = true → 4 < t.remaining ∧ t.remaining < blockSize (t.rxU16 (t.blockStart + 2))) := by
  induction fuel generalizing s with
  | zero =>
    cases h
    exact ⟨hcursor, fun _ => hfuel, nofun⟩
  | succ fuel ih =>
    obtain ⟨hrem, rfl⟩ | ⟨hrem, -, hover, rfl⟩ | ⟨-, -, hfits, d, -, h⟩ := parseLoop_cases h
    · exact ⟨hcursor, fun _ => hrem, nofun⟩
    · exact ⟨hcursor, nofun, fun _ => ⟨hrem, hover⟩⟩
    · have hsize := blockSize_ge (s.rxU16 (s.blockStart + 2))
      have hadvance : s.remaining = s.view.dlen.toNat - s.cursor := rfl
      refine ih ?_ ?_ h
      · simp only [State.advance_cursor, State.setDesc_cursor, State.advance_view, State.setDesc_view]
        omega
      · rw [remaining_setDesc_advance]
        omega

/-- Two fuels that are enough make the same turns (R178; log entry 13). -/
theorem parseLoop_fuel {fuel fuel' : Nat} {s : State} (h : s.remaining ≤ 4 * fuel + 4)
    (h' : s.remaining ≤ 4 * fuel' + 4) : parseLoop fuel s = parseLoop fuel' s := by
  by_cases hrem : s.remaining ≤ 4
  · rw [parseLoop_exhausted fuel hrem, parseLoop_exhausted fuel' hrem]
  induction fuel generalizing fuel' s with
  | zero => omega
  | succ fuel ih =>
    obtain ⟨fuel', rfl⟩ : ∃ n, fuel' = n + 1 := ⟨fuel' - 1, by omega⟩
    rw [parseLoop, parseLoop, if_neg hrem, if_neg hrem]
    congr 1
    funext ⟨option, suboption, len⟩
    dsimp only
    split_ifs
    · rfl
    cases hv : dispatchBlock option suboption len s with
    | error e => rfl
    | ok v =>
      obtain ⟨d, rfl⟩ : ∃ d, v = s.setDesc d := ⟨_, dispatchBlock_frame hv⟩
      have hsize := blockSize_ge len
      have hnext := remaining_setDesc_advance s d (blockSize len)
      by_cases hlast : ((s.setDesc d).advance (blockSize len)).remaining ≤ 4
      · rw [engine_ok, engine_ok, parseLoop_exhausted fuel hlast, parseLoop_exhausted fuel' hlast]
      · exact ih (by omega) (by omega) hlast

/-- Settles O27. -/
theorem parseLoopEnds : Obligations.ParseLoopEnds := by
  refine ⟨fun s t hcursor => parseLoop_end hcursor ?_, fun s fuel hfuel => parseLoop_fuel ?_ ?_⟩
  all_goals
    have hdlen := s.view.dlen.isLt
    unfold State.remaining
    omega

/-! ### What a block says of the descriptor, from its payload bytes (R91 to R94, R181 to R186) -/

theorem u16At_rxString (s : State) {a n k : Nat} (h : k + 2 ≤ n) : u16At (s.rxString a n) k = s.rxU16 (a + k) := by
  rw [u16At, rxString_getD s (by omega), rxString_getD s (by omega), State.rxU16, Nat.add_assoc]

theorem u32At_rxString (s : State) {a n k : Nat} (h : k + 4 ≤ n) : u32At (s.rxString a n) k = s.rxU32 (a + k) := by
  rw [u32At, u16At_rxString s (by omega), u16At_rxString s (by omega), State.rxU32, Nat.add_assoc]

/-- A pair without a meaning of its own says nothing of the descriptor (R186). -/
theorem describeBlock_other {o u : Byte} (h : o ++ u ∉ knownKeys) (body : List Byte) (d : Descriptor) :
    describeBlock o u body d = d := by
  simp only [knownKeys, List.mem_cons, List.not_mem_nil, or_false, not_or] at h
  obtain ⟨hcustom, hname, hid, hrole, hip⟩ := h
  unfold describeBlock
  rw [if_neg fun ⟨ho, hu, _⟩ => hcustom (by rw [ho, hu]; rfl), if_neg fun ⟨ho, hu, _⟩ => hname (by rw [ho, hu]; rfl),
    if_neg fun ⟨ho, hu, _⟩ => hid (by rw [ho, hu]; rfl), if_neg fun ⟨ho, hu, _⟩ => hrole (by rw [ho, hu]; rfl),
    if_neg fun ⟨ho, hu, _⟩ => hip (by rw [ho, hu]; rfl)]

theorem setDesc_self (s : State) : s.setDesc s.desc = s := rfl

section Describe

variable {s : State} {len : Half} (hb : s.blockStart + 4 + len.toNat ≤ s.rxLen.toNat)
include hb

theorem blockCustom_describes :
    blockCustom len s =
      .ok (s.setDesc (describeBlock 2#8 1#8 (s.rxString (s.blockStart + 4) len.toNat) s.desc)) := by
  by_cases hl : 2 ≤ len.toNat ∧ len.toNat ≤ 63
  · rw [blockCustom_ok hl hb]
    simp [describeBlock, hl, rxString_drop]
  · rw [blockCustom_skip hl]
    simp [describeBlock, hl, setDesc_self]

theorem blockName_describes :
    blockName len s =
      .ok (s.setDesc (describeBlock 2#8 2#8 (s.rxString (s.blockStart + 4) len.toNat) s.desc)) := by
  by_cases hl : 2 ≤ len.toNat ∧ len.toNat ≤ 63
  · rw [blockName_ok hl hb]
    simp [describeBlock, hl, rxString_drop]
  · rw [blockName_skip hl]
    simp [describeBlock, hl, setDesc_self]

theorem blockId_describes :
    blockId len s =
      .ok (s.setDesc (describeBlock 2#8 3#8 (s.rxString (s.blockStart + 4) len.toNat) s.desc)) := by
  by_cases hl : 6 ≤ len.toNat
  · rw [blockId_ok hl hb]
    simp [describeBlock, hl, u16At_rxString s (show 2 + 2 ≤ len.toNat by omega),
      u16At_rxString s (show 4 + 2 ≤ len.toNat by omega)]
  · rw [blockId_skip hl]
    simp [describeBlock, hl, setDesc_self]

theorem blockRole_describes :
    blockRole len s =
      .ok (s.setDesc (describeBlock 2#8 4#8 (s.rxString (s.blockStart + 4) len.toNat) s.desc)) := by
  by_cases hl : 3 ≤ len.toNat
  · rw [blockRole_ok hl hb]
    simp [describeBlock, hl, rxString_getD s (show 2 < len.toNat by omega), -List.getD_eq_getElem?_getD]
  · rw [blockRole_skip hl]
    simp [describeBlock, hl, setDesc_self]

theorem blockIp_describes :
    blockIp len s =
      .ok (s.setDesc (describeBlock 1#8 2#8 (s.rxString (s.blockStart + 4) len.toNat) s.desc)) := by
  by_cases hl : 14 ≤ len.toNat
  · rw [blockIp_ok hl hb]
    simp [describeBlock, hl, u16At_rxString s (show 0 + 2 ≤ len.toNat by omega),
      u32At_rxString s (show 2 + 4 ≤ len.toNat by omega), u32At_rxString s (show 6 + 4 ≤ len.toNat by omega),
      u32At_rxString s (show 10 + 4 ≤ len.toNat by omega)]
  · rw [blockIp_skip hl]
    simp [describeBlock, hl, setDesc_self]

/-- A dispatched block below RX_LEN gives the descriptor that its payload bytes say. -/
theorem dispatchBlock_describes (o u : Byte) :
    dispatchBlock o u len s = .ok (s.setDesc (describeBlock o u (s.rxString (s.blockStart + 4) len.toNat) s.desc)) := by
  rcases key_cases (o ++ u) with h | h | h | h | h | h
  · obtain ⟨rfl, rfl⟩ : o = 2#8 ∧ u = 1#8 := append_inj.mp h
    exact blockCustom_describes hb
  · obtain ⟨rfl, rfl⟩ : o = 2#8 ∧ u = 2#8 := append_inj.mp h
    exact blockName_describes hb
  · obtain ⟨rfl, rfl⟩ : o = 2#8 ∧ u = 3#8 := append_inj.mp h
    exact blockId_describes hb
  · obtain ⟨rfl, rfl⟩ : o = 2#8 ∧ u = 4#8 := append_inj.mp h
    exact blockRole_describes hb
  · obtain ⟨rfl, rfl⟩ : o = 1#8 ∧ u = 2#8 := append_inj.mp h
    exact blockIp_describes hb
  · rw [dispatchBlock_other h, describeBlock_other h]
    rfl

end Describe

/-! ### PARSE describes the payload -/

/-- At most four bytes hold no block (R173). -/
theorem describeBlocks_exhausted (fuel : Nat) {bytes : List Byte} (h : bytes.length ≤ 4) (d : Descriptor) :
    describeBlocks fuel bytes d = (d, false) := by
  unfold describeBlocks
  split
  · simp only [List.length_cons] at h
    omega
  · rfl

/-- One turn of the recursion on received bytes: the header at their front, and the block if it fits with its pad. -/
theorem describeBlocks_rxString (fuel : Nat) (s : State) (a : Nat) {n : Nat} (h : 4 < n) (d : Descriptor) :
    describeBlocks (fuel + 1) (s.rxString a n) d =
      if n < blockSize (s.rxU16 (a + 2)) then (d, true)
      else describeBlocks fuel (s.rxString (a + blockSize (s.rxU16 (a + 2))) (n - blockSize (s.rxU16 (a + 2))))
        (describeBlock (s.rxAt a) (s.rxAt (a + 1)) (s.rxString (a + 4) (s.rxU16 (a + 2)).toNat) d) := by
  obtain ⟨k, rfl⟩ : ∃ k, n = k + 5 := ⟨n - 5, by omega⟩
  have hbytes : s.rxString a (k + 5) =
      s.rxAt a :: s.rxAt (a + 1) :: s.rxAt (a + 2) :: s.rxAt (a + 3) :: s.rxAt (a + 4) :: s.rxString (a + 5) k := by
    simp only [State.rxString_succ, Nat.add_assoc, Nat.reduceAdd]
  have hlen : s.rxAt (a + 2) ++ s.rxAt (a + 3) = s.rxU16 (a + 2) := rfl
  have hafter : s.rxAt (a + 4) :: s.rxString (a + 5) k = s.rxString (a + 4) (k + 1) := (s.rxString_succ _ _).symm
  have hsize : blockSize (s.rxU16 (a + 2)) = 4 + ((s.rxU16 (a + 2)).toNat + (s.rxU16 (a + 2)).toNat % 2) :=
    Nat.add_assoc _ _ _
  rw [hbytes, describeBlocks, hlen, hafter, State.rxString_length, hsize]
  by_cases hover : k + 1 < (s.rxU16 (a + 2)).toNat + (s.rxU16 (a + 2)).toNat % 2
  · rw [if_pos hover, if_pos (by omega)]
  · rw [if_neg hover, if_neg (by omega), rxString_drop, rxString_take s (by omega), ← Nat.add_assoc a 4,
      show k + 5 = 4 + (k + 1) by omega, Nat.add_sub_add_left]

/-- The loop's descriptor and PARSE_OVERRUN are those of the recursion over the bytes that remain. -/
theorem parseLoop_describes {fuel : Nat} {s t : State} (hfits : s.view.poff.toNat + s.view.dlen.toNat ≤ s.rxLen.toNat)
    (h : parseLoop fuel s = .ok t) :
    describeBlocks fuel (s.rxString s.blockStart s.remaining) s.desc = (t.desc, t.parseOverrun) := by
  induction fuel generalizing s with
  | zero =>
    cases h
    rfl
  | succ fuel ih =>
    obtain ⟨hrem, rfl⟩ | ⟨hrem, -, hover, rfl⟩ | ⟨hrem, -, hblock, d, hd, h⟩ := parseLoop_cases h
    · exact describeBlocks_exhausted _ (by rwa [State.rxString_length]) _
    · rw [describeBlocks_rxString fuel s _ hrem, if_pos hover]
    · have hbelow := block_below_rxLen hrem (Nat.not_lt.mpr hblock) hfits
      rw [dispatchBlock_describes hbelow] at hd
      obtain rfl : describeBlock _ _ _ _ = d := congrArg State.desc (Except.ok.inj hd)
      have hnext := ih (by exact hfits) h
      rw [remaining_setDesc_advance, blockStart_setDesc_advance] at hnext
      rw [describeBlocks_rxString fuel s _ hrem, if_neg (by omega)]
      exact hnext

/-- Settles O24: PARSE starts the loop at the front of the payload, with the empty descriptor. -/
theorem parseDescribesPayload : Obligations.ParseDescribesPayload := by
  intro s hv hfits
  obtain ⟨t, ht⟩ := exec_parse_completes fun _ => hfits
  obtain ⟨u, hu, rfl⟩ := exec_parse_view hv ht
  have hdescribes : describeBlocks s.view.dlen.toNat s.payload Descriptor.empty = (u.desc, u.parseOverrun) :=
    parseLoop_describes (s := { s with desc := Descriptor.empty, cursor := 0 }) hfits hu
  rw [ht, hdescribes]

end Sys2Proof.Machine

namespace Sys2Proof.Machine

/-! ### The fields a block kind decides (R187)

A block reads neither the descriptor nor RESULT nor PARSE_OVERRUN: it overwrites the fields of its kind, or where its
length check fails leaves the descriptor as it is. So what it does to another state with the same bytes is known from what
it did to the first one. -/

/-- The key of the kind whose fields a block overwrites; none where its length check fails. -/
def decidedKey (i : Instr) : Option Half := if blockQualifies i then blockKey i else none

/-- Blocks of different kinds decide no field in common. -/
theorem decidedKey_disjoint {i j : Instr} (h : blockKey i ≠ blockKey j) :
    decidedKey i ≠ decidedKey j ∨ decidedKey i = none ∨ decidedKey j = none := by
  unfold decidedKey
  split_ifs
  · exact .inl h
  · exact .inr (.inr rfl)
  · exact .inr (.inl rfl)
  · exact .inr (.inl rfl)

/-- A block that passes its length check decides all that an earlier block of its kind can have decided. -/
theorem decidedKey_covers {i j : Instr} (h : blockKey i = blockKey j) (hj : blockQualifies j = true) :
    decidedKey i = decidedKey j ∨ decidedKey i = none := by
  unfold decidedKey
  rw [if_pos hj, ← h]
  split_ifs
  · exact .inl rfl
  · exact .inr rfl

/-- The descriptor `d` with the fields of a kind taken from `e` (R181 to R185). -/
def Descriptor.overwrite (d : Descriptor) (key : Option Half) (e : Descriptor) : Descriptor :=
  { vendor := if key = some 0x0201#16 then e.vendor else d.vendor
    name := if key = some 0x0202#16 then e.name else d.name
    vendorId := if key = some 0x0203#16 then e.vendorId else d.vendorId
    deviceId := if key = some 0x0203#16 then e.deviceId else d.deviceId
    role := if key = some 0x0204#16 then e.role else d.role
    ipAddr := if key = some 0x0102#16 then e.ipAddr else d.ipAddr
    ipMask := if key = some 0x0102#16 then e.ipMask else d.ipMask
    ipGw := if key = some 0x0102#16 then e.ipGw else d.ipGw
    ipStatus := if key = some 0x0102#16 then e.ipStatus else d.ipStatus }

theorem ite_key_comm {α : Type} {k l : Option Half} (h : k ≠ l ∨ k = none ∨ l = none) (key : Half) (a b c : α) :
    (if k = some key then a else if l = some key then b else c) =
      if l = some key then b else if k = some key then a else c := by
  split_ifs with hk hl
  · rw [hk, hl] at h
    simp at h
  all_goals rfl

/-- Different kinds have different fields, so the order of overwriting does not matter. -/
theorem Descriptor.overwrite_comm {k l : Option Half} (h : k ≠ l ∨ k = none ∨ l = none) (d e f : Descriptor) :
    (d.overwrite l f).overwrite k e = (d.overwrite k e).overwrite l f := by
  unfold Descriptor.overwrite
  simp only [ite_key_comm h]

theorem ite_key_absorb {α : Type} {k l : Option Half} (h : l = k ∨ l = none) (key : Half) (a b c : α) :
    (if k = some key then a else if l = some key then b else c) = if k = some key then a else c := by
  obtain rfl | rfl := h
  · split_ifs <;> rfl
  · rfl

/-- A kind's fields overwritten again keep nothing of the first time. -/
theorem Descriptor.overwrite_absorb {k l : Option Half} (h : l = k ∨ l = none) (d e f : Descriptor) :
    (d.overwrite l f).overwrite k e = d.overwrite k e := by
  unfold Descriptor.overwrite
  simp only [ite_key_absorb h]

/-- `s` with another RESULT, PARSE_OVERRUN and descriptor: all that PARSE writes, but for the cursor (R48). -/
def State.withOutput (s : State) (r : ResultCode) (p : Bool) (d : Descriptor) : State :=
  { s with result := r, parseOverrun := p, desc := d }

section Output

variable (s : State) (r : ResultCode) (p : Bool) (d : Descriptor) (len : Half)

theorem rxBytes_withOutput (a n : Nat) : rxBytes (s.withOutput r p d) a n = rxBytes s a n := by
  induction n generalizing a with
  | zero => rfl
  | succ n ih =>
    rw [rxBytes, rxBytes, ih]
    rfl

theorem textOfBlock_withOutput : textOfBlock (s.withOutput r p d) len = textOfBlock s len := by
  unfold textOfBlock
  rw [rxBytes_withOutput]
  rfl

theorem blockCustom_withOutput : blockCustom len (s.withOutput r p d) =
    (fun t => s.withOutput r p (d.overwrite (decidedKey (.blkDevpropCustom len)) t.desc)) <$> blockCustom len s := by
  by_cases hl : 2 ≤ len.toNat ∧ len.toNat ≤ 63
  · have hkey : decidedKey (.blkDevpropCustom len) = some 0x0201#16 := if_pos (decide_eq_true hl)
    rw [hkey, blockCustom, blockCustom, textOfBlock_withOutput, textOfBlock, if_pos hl]
    simp only [map_bind, bind_assoc, pure_bind, map_pure]
    rfl
  · have hkey : decidedKey (.blkDevpropCustom len) = none := if_neg (mt of_decide_eq_true hl)
    rw [hkey, blockCustom_skip hl, blockCustom_skip hl]
    rfl

theorem blockName_withOutput : blockName len (s.withOutput r p d) =
    (fun t => s.withOutput r p (d.overwrite (decidedKey (.blkDevpropName len)) t.desc)) <$> blockName len s := by
  by_cases hl : 2 ≤ len.toNat ∧ len.toNat ≤ 63
  · have hkey : decidedKey (.blkDevpropName len) = some 0x0202#16 := if_pos (decide_eq_true hl)
    rw [hkey, blockName, blockName, textOfBlock_withOutput, textOfBlock, if_pos hl]
    simp only [map_bind, bind_assoc, pure_bind, map_pure]
    rfl
  · have hkey : decidedKey (.blkDevpropName len) = none := if_neg (mt of_decide_eq_true hl)
    rw [hkey, blockName_skip hl, blockName_skip hl]
    rfl

theorem blockId_withOutput : blockId len (s.withOutput r p d) =
    (fun t => s.withOutput r p (d.overwrite (decidedKey (.blkDevpropId len)) t.desc)) <$> blockId len s := by
  by_cases hl : 6 ≤ len.toNat
  · have hkey : decidedKey (.blkDevpropId len) = some 0x0203#16 := if_pos (decide_eq_true hl)
    rw [hkey, blockId, blockId, if_pos hl, if_pos hl]
    simp only [map_bind, map_pure]
    rfl
  · have hkey : decidedKey (.blkDevpropId len) = none := if_neg (mt of_decide_eq_true hl)
    rw [hkey, blockId_skip hl, blockId_skip hl]
    rfl

theorem blockRole_withOutput : blockRole len (s.withOutput r p d) =
    (fun t => s.withOutput r p (d.overwrite (decidedKey (.blkDevpropRole len)) t.desc)) <$> blockRole len s := by
  by_cases hl : 3 ≤ len.toNat
  · have hkey : decidedKey (.blkDevpropRole len) = some 0x0204#16 := if_pos (decide_eq_true hl)
    rw [hkey, blockRole, blockRole, if_pos hl, if_pos hl]
    simp only [map_bind, map_pure]
    rfl
  · have hkey : decidedKey (.blkDevpropRole len) = none := if_neg (mt of_decide_eq_true hl)
    rw [hkey, blockRole_skip hl, blockRole_skip hl]
    rfl

theorem blockIp_withOutput : blockIp len (s.withOutput r p d) =
    (fun t => s.withOutput r p (d.overwrite (decidedKey (.blkAddressIp len)) t.desc)) <$> blockIp len s := by
  by_cases hl : 14 ≤ len.toNat
  · have hkey : decidedKey (.blkAddressIp len) = some 0x0102#16 := if_pos (decide_eq_true hl)
    rw [hkey, blockIp, blockIp, if_pos hl, if_pos hl]
    simp only [map_bind, map_pure]
    rfl
  · have hkey : decidedKey (.blkAddressIp len) = none := if_neg (mt of_decide_eq_true hl)
    rw [hkey, blockIp_skip hl, blockIp_skip hl]
    rfl

end Output

/-- A block's work on another output, at the end of the instruction. -/
theorem conclude_work_withOutput {s t : State} {r : ResultCode} {p : Bool} {d : Descriptor}
    {work : State → Engine State} {f : State → State} (hn : NoReject (work s))
    (hwork : work (s.withOutput r p d) = f <$> work s) (h : conclude s (work s) = .next t) :
    conclude (s.withOutput r p d) (work (s.withOutput r p d)) = .next (f t) := by
  rw [hwork, ok_of_conclude_next hn h]
  rfl

/-- What a block kind does to a state with another output. -/
theorem exec_block_withOutput {i : Instr} {s t : State} (hi : (blockKey i).isSome) (h : exec i s = .next t)
    (r : ResultCode) (p : Bool) (d : Descriptor) :
    exec i (s.withOutput r p d) = .next (s.withOutput r p (d.overwrite (decidedKey i) t.desc)) := by
  cases i with
  | blkDevpropCustom len =>
    exact conclude_work_withOutput (noReject_blockCustom len s) (blockCustom_withOutput s r p d len) h
  | blkDevpropName len =>
    exact conclude_work_withOutput (noReject_blockName len s) (blockName_withOutput s r p d len) h
  | blkDevpropId len => exact conclude_work_withOutput (noReject_blockId len s) (blockId_withOutput s r p d len) h
  | blkDevpropRole len =>
    exact conclude_work_withOutput (noReject_blockRole len s) (blockRole_withOutput s r p d len) h
  | blkAddressIp len => exact conclude_work_withOutput (noReject_blockIp len s) (blockIp_withOutput s r p d len) h
  | blkOther option suboption len =>
    obtain rfl := Host.Outcome.next.inj h
    rfl
  | nop | encIdentify | encFlashled | validate | parse | illegal => cases hi

/-- A block kind changes no field of the state but those of its kind in the descriptor. -/
theorem exec_block_frame {i : Instr} {s t : State} (hi : (blockKey i).isSome) (h : exec i s = .next t) :
    t = s.setDesc t.desc ∧ s.desc.overwrite (decidedKey i) t.desc = t.desc := by
  have hsame : exec i s = .next (s.setDesc (s.desc.overwrite (decidedKey i) t.desc)) :=
    exec_block_withOutput hi h s.result s.parseOverrun s.desc
  have ht := Host.Outcome.next.inj (h.symm.trans hsame)
  have hdesc : s.desc.overwrite (decidedKey i) t.desc = t.desc := (congrArg State.desc ht).symm
  rw [hdesc] at ht
  exact ⟨ht, hdesc⟩

/-- The same block where other blocks have written the descriptor. -/
theorem exec_block_setDesc {i : Instr} {s t : State} (hi : (blockKey i).isSome) (h : exec i s = .next t)
    (d : Descriptor) : exec i (s.setDesc d) = .next (s.setDesc (d.overwrite (decidedKey i) t.desc)) :=
  exec_block_withOutput hi h s.result s.parseOverrun d

/-- Settles O34: each block overwrites the fields of its own kind. -/
theorem differentBlockKindsCommute : Obligations.DifferentBlockKindsCommute := by
  intro s t u i j c d hi hj hkeys ht hu
  obtain ⟨htFrame, htDesc⟩ := exec_block_frame hi ht
  obtain ⟨huFrame, huDesc⟩ := exec_block_frame hj hu
  have hv := exec_block_setDesc hj hu t.desc
  have hw := exec_block_setDesc hi ht u.desc
  rw [htFrame, huFrame]
  refine ⟨_, _, hv, hw, ?_⟩
  have hdesc : t.desc.overwrite (decidedKey j) u.desc = u.desc.overwrite (decidedKey i) t.desc :=
    calc t.desc.overwrite (decidedKey j) u.desc
        = (s.desc.overwrite (decidedKey i) t.desc).overwrite (decidedKey j) u.desc := by rw [htDesc]
      _ = (s.desc.overwrite (decidedKey j) u.desc).overwrite (decidedKey i) t.desc :=
        Descriptor.overwrite_comm (decidedKey_disjoint hkeys.symm) _ _ _
      _ = u.desc.overwrite (decidedKey i) t.desc := by rw [huDesc]
  rw [hdesc]
  rfl

theorem isSome_blockKey_of_qualifies {i : Instr} (h : blockQualifies i = true) : (blockKey i).isSome := by
  cases i with
  | blkDevpropCustom | blkDevpropName | blkDevpropId | blkDevpropRole | blkAddressIp => rfl
  | blkOther | nop | encIdentify | encFlashled | validate | parse | illegal => cases h

/-- Settles O35: what the earlier block wrote is overwritten. -/
theorem laterBlockOfAKindWins : Obligations.LaterBlockOfAKindWins := by
  intro s t u i j c d hkeys hqualifies ht hu
  have hj := isSome_blockKey_of_qualifies hqualifies
  obtain ⟨htFrame, htDesc⟩ := exec_block_frame (hkeys ▸ hj) ht
  obtain ⟨huFrame, huDesc⟩ := exec_block_frame hj hu
  have hdesc : t.desc.overwrite (decidedKey j) u.desc = u.desc :=
    calc t.desc.overwrite (decidedKey j) u.desc
        = (s.desc.overwrite (decidedKey i) t.desc).overwrite (decidedKey j) u.desc := by rw [htDesc]
      _ = s.desc.overwrite (decidedKey j) u.desc :=
        Descriptor.overwrite_absorb (decidedKey_covers hkeys hqualifies) _ _ _
      _ = u.desc := huDesc
  have hv := exec_block_setDesc hj hu t.desc
  rw [hdesc, ← huFrame] at hv
  rw [htFrame]
  exact hv

/-! ### PARSE issued again

PARSE_OVERRUN and RESULT of the first PARSE are all that the second one finds changed, and the loop reads neither. -/

theorem isSome_blockKey_decodeBlock (o u : Byte) (len : Half) : (blockKey (decodeBlock o u len)).isSome := by
  unfold decodeBlock
  dsimp only
  split_ifs <;> rfl

/-- The loop reads neither RESULT nor PARSE_OVERRUN, and leaves RESULT as it is. -/
theorem parseLoop_withOutput {fuel : Nat} {s t : State} (h : parseLoop fuel s = .ok t) (r : ResultCode) (p : Bool) :
    parseLoop fuel (s.withOutput r p s.desc) = .ok (t.withOutput r t.parseOverrun t.desc) := by
  induction fuel generalizing s with
  | zero =>
    cases h
    rfl
  | succ fuel ih =>
    obtain ⟨hrem, rfl⟩ | ⟨hrem, hhead, hover, rfl⟩ | ⟨hrem, hhead, hblock, d, hd, h⟩ := parseLoop_cases h
    · exact parseLoop_exhausted (fuel + 1) hrem
    · exact (parseLoop_turn_of_header (s := s.withOutput r p s.desc) fuel hrem hhead).trans (if_pos hover)
    · rw [← exec_decodeBlock_eq_next] at hd
      obtain ⟨-, hdesc⟩ := exec_block_frame (isSome_blockKey_decodeBlock _ _ _) hd
      have hd' := exec_block_withOutput (isSome_blockKey_decodeBlock _ _ _) hd r p s.desc
      rw [hdesc, exec_decodeBlock_eq_next] at hd'
      exact (parseLoop_dispatched (s := s.withOutput r p s.desc) fuel hrem hhead hblock hd').trans (ih h)

/-- PARSE with a view answers what its loop gives. -/
theorem exec_parse_of_loop {s u : State} (hv : s.viewValid = true)
    (hu : parseLoop s.view.dlen.toNat { s with desc := Descriptor.empty, cursor := 0 } = .ok u) :
    exec .parse s =
      .next { s with desc := u.desc, parseOverrun := u.parseOverrun, result := .ok, cursor := 0 } := by
  rw [exec_parse_eq_conclude hv, parseView, hu, engine_ok, parseLoop_frame hu]
  rfl

/-- Settles O26. -/
theorem parseTwiceGivesTheSame : Obligations.ParseTwiceGivesTheSame := by
  intro s t hv ht
  obtain ⟨u, hu, rfl⟩ := exec_parse_view hv ht
  exact exec_parse_of_loop (u := u.withOutput .ok u.parseOverrun u.desc) hv (parseLoop_withOutput hu _ _)

end Sys2Proof.Machine

namespace Sys2Proof.Machine

/-! ### The control commands (R200, R201) -/

theorem exec_nop (s : State) : exec .nop s = .next s := rfl

theorem exec_illegal (reserved : BitVec 28) (opcode : BitVec 4) (s : State) :
    exec (.illegal reserved opcode) s = .next { s with result := .illegalCmd } := rfl

/-- A word outside the opcode map of R72 decodes to ILLEGAL with its own fields (R73). -/
theorem decodeCommand_outside_opcodeMap {w : Word} (h : w ∉ [0#32, 1#32, 2#32, 3#32, 4#32]) :
    decodeCommand w = .illegal (w.extractLsb' 4 28) (w.extractLsb' 0 4) := by
  simp only [List.mem_cons, List.not_mem_nil, or_false, not_or] at h
  obtain ⟨hnop, hidentify, hflashled, hvalidate, hparse⟩ := h
  have hillegal := (commandWord_cases w).resolve_left hnop |>.resolve_left hidentify |>.resolve_left hflashled
    |>.resolve_left hvalidate |>.resolve_left hparse
  exact decodeCommand_illegal hillegal

/-- Settles O8. -/
theorem nopChangesNothing : Obligations.NopChangesNothing := by
  obtain ⟨hnop, -⟩ := commandWordsFollowOpcodeMap
  exact ⟨hnop, exec_nop⟩

/-- Settles O10: a word outside the opcode map is ILLEGAL, and every ILLEGAL instruction writes RESULT alone. -/
theorem illegalCommandWritesResultOnly : Obligations.IllegalCommandWritesResultOnly := by
  refine ⟨rfl, fun w s hw => ?_, exec_illegal⟩
  rw [decodeCommand_outside_opcodeMap hw, exec_illegal]

end Sys2Proof.Machine

namespace Sys2Proof.Machine

/-! ### The result codes (R210) -/

/-- The table of R210 read from number to code, as a host reads STATUS.RESULT; every other number names no code. -/
def ResultCode.ofByte? : Byte → Option ResultCode
  | 0x00#8 => some .ok
  | 0x01#8 => some .truncEth
  | 0x02#8 => some .truncVlan
  | 0x03#8 => some .truncProfinet
  | 0x04#8 => some .truncDcp
  | 0x05#8 => some .addrMismatch
  | 0x06#8 => some .protoMismatch
  | 0x07#8 => some .frameidMismatch
  | 0x08#8 => some .dlenExceeds
  | 0x10#8 => some .noView
  | 0x11#8 => some .illegalCmd
  | _ => none

@[simp] theorem ResultCode.ofByte?_code (c : ResultCode) : ResultCode.ofByte? c.code = some c := by
  cases c <;> rfl

/-- A host tells the outcomes apart by their numbers (R211): the number can be read back. -/
theorem ResultCode.code_injective : Function.Injective ResultCode.code := by
  intro c d h
  have hread : some c = some d := by rw [← ofByte?_code c, h, ofByte?_code]
  exact Option.some.inj hread

/-- Settles O9: the numbers are those of `ResultCode.code`, and reading them back tells the codes apart. -/
theorem resultCodesHaveTheirNumbers : Obligations.ResultCodesHaveTheirNumbers :=
  ⟨rfl, rfl, rfl, rfl, rfl, rfl, rfl, rfl, rfl, rfl, rfl, ResultCode.code_injective⟩

end Sys2Proof.Machine
